-- ==== Sys2Proof/Word.lean ====
section
/-! DEFINITION. Word.lean: the widths the core works in (00_scope R13 to R15, 20_memory R50, 30_encoding R71). -/

namespace Sys2Proof

/-- `u8`: a byte of the stream, of the window or of a frame (00_scope R15). -/
abbrev Byte := BitVec 8

/-- A frame carried as one value: byte `i` at bits `[8i+7 : 8i]` (30_encoding R71). -/
abbrev Frame := BitVec 112

/-- The command word `CMD`: `OP` in bits 10..8, `DATA` in bits 7..0 (30_encoding R80). -/
abbrev Cmd := BitVec 11

/-- `u4`: a digit nibble, a measurement-type code, a table identifier or a raw unit code. -/
abbrev Nibble := BitVec 4

end Sys2Proof
end

