-- ==== Sys2Proof/Config.lean ====
section
/-! DEFINITION. Config.lean: what the hardware is built with (the lookup ROMs and the OPEN parameters, 00_scope R5,
10_state R31 to R33), the record the Decoder outputs (10_state R40), and the free values (93 A10 to A12). -/

namespace Sys2Proof

/-- A label identifier: an opaque configuration value with the distinguished value EMPTY (30_encoding R78). The text it
stands for is outside the core; the number only tells labels apart (DESIGN CHOICE, log 9, safe). -/
inductive LabelId where
  | empty
  | label (n : Nat)
deriving DecidableEq, Repr, Inhabited

/-- One word of the Measurement-Type ROM, in the packing of 10_state R32. With `present` false the other fields are
ignored; with `hasTable` false `table` is ignored. -/
structure MtWord where
  present   : Bool
  hasTable  : Bool
  table     : Nibble
  modeLabel : LabelId
deriving DecidableEq, Repr

/-- One word of a range ROM, in the packing of 10_state R33. `scaleExp` is `s6`: the scale factor is ten to the power of
its two's-complement value (41_decoder R151). -/
structure RtWord where
  present    : Bool
  unit       : Nibble
  scaleExp   : BitVec 6
  rangeLabel : LabelId
deriving DecidableEq, Repr

/-- A present Measurement-Type entry (10_state R32). -/
structure MtEntry where
  modeLabel : LabelId
  table     : Option Nibble
deriving DecidableEq, Repr

/-- A present range entry (10_state R33). -/
structure RangeEntry where
  rangeLabel : LabelId
  unit       : Nibble
  scaleExp   : BitVec 6
deriving DecidableEq, Repr

/-- `READ_ATTEMPT_MULTIPLE`: an integer K ≥ 1 (42_stream_reader R188); the bound travels with the value (log 15, safe). -/
structure Multiple where
  val : Nat
  pos : 1 ≤ val
deriving DecidableEq, Repr

/-- The configuration a core is built with (00_scope R5, 10_state R31). `rt` lists the range tables by their identifier:
the table with identifier `t` exists exactly when the list has an element at index `t` (30_encoding R76; log 8). -/
structure Config where
  mt         : List MtWord
  rt         : List (List RtWord)
  numCurrent : Nat
  multiple   : Multiple
deriving DecidableEq, Repr

/-- The absent Measurement-Type entry as a ROM word. -/
def MtWord.blank : MtWord := ⟨false, false, 0, .empty⟩

/-- The absent range slot as a ROM word. -/
def RtWord.blank : RtWord := ⟨false, 0, 0, .empty⟩

/-- ROMs that list nothing, at the least admitted parameters: the configuration of `State.reset`. The spec leaves the contents
OPEN (DESIGN CHOICE, log 7, unsafe). -/
def Config.blank : Config where
  mt := List.replicate 16 MtWord.blank
  rt := List.replicate 7 (List.replicate 8 RtWord.blank)
  numCurrent := 2
  multiple := ⟨1, Nat.le_refl 1⟩

/-- The Reading, the decoded output record: the fields and widths of 10_state R40. -/
structure Reading where
  flags      : BitVec 13
  mode       : Nibble
  modeLabel  : LabelId
  table      : Nibble
  range      : BitVec 3
  rangeLabel : LabelId
  unit       : Nibble
  valMant    : BitVec 19
  valExp     : BitVec 6
  normUnit   : BitVec 3
  normMant   : BitVec 19
  normExp    : BitVec 7
deriving DecidableEq, Repr, Inhabited

/-- Free value: what `FRAME_OUT` holds in a step that emits no frame (10_state R25, 93 A10; log 3, safe). -/
opaque Config.freeFrame : Nat → Frame

/-- Free value: what `READING` holds in a step that returns no Reading (10_state R42, 93 A11; log 3, safe). -/
opaque Config.freeReading : Nat → Reading

/-- Free value: what `WMEM` holds after the RESET command (10_state R45, 93 A12; log 4, safe). -/
opaque Config.freeWmem : Nat → Vector Byte 14

end Sys2Proof
end

