-- ==== Sys2Proof/Machine/Operands.lean ====
section
/-! DEFINITION. Machine/Operands.lean: the fields of a frame (30_encoding R70 to R73), a frame as fourteen bytes and as one
value (R71), and the numbers the Decoder makes of them (41_decoder R138, R140, R143). -/

namespace Sys2Proof

/-- Byte `i` of a frame, `F[i] = FV[8i+7 : 8i]` (30_encoding R71). -/
def frameByte (f : Frame) (i : Nat) : Byte := f.extractLsb' (8 * i) 8

/-- The fourteen bytes of a frame, byte 0 first (00_scope R14, 20_memory R52). -/
def frameBytes (f : Frame) : List Byte := (List.range 14).map (frameByte f)

/-- Bytes carried as one value, the first in the least significant bits (30_encoding R71). -/
def packFrame (bytes : List Byte) : Frame :=
  match bytes with
  | [] => 0
  | b :: rest => (packFrame rest <<< (8 : Nat)) ||| b.setWidth 112

/-- Bit `n` of byte `i` of a frame, `F[i][n]` (00_scope R13, R14). -/
def frameBit (f : Frame) (i n : Nat) : Bool := f.getLsbD (8 * i + n)

/-- `RANGE(F) = F[0][2:0]` (30_encoding R72). -/
def rangeCode (f : Frame) : BitVec 3 := (frameByte f 0).extractLsb' 0 3

/-- `DIGIT(F,k) = F[k][3:0]`, `k` from 1 (most significant) to 5 (30_encoding R72). -/
def digit (f : Frame) (k : Nat) : Nibble := (frameByte f k).extractLsb' 0 4

/-- `MTYPE(F) = F[6][3:0]` (30_encoding R72). -/
def mtypeCode (f : Frame) : Nibble := (frameByte f 6).extractLsb' 0 4

/-- The base value: the five digit nibbles accumulated in order, each at face value (41_decoder R138). -/
def baseValue (f : Frame) : Nat :=
  [1, 2, 3, 4, 5].foldl (fun base k => base * 10 + (digit f k).toNat) 0

/-- The canonical units (30_encoding R79). -/
inductive CanonUnit where
  | volt | ampere | ohm | farad | hertz | percent
deriving DecidableEq, Repr

/-- Canonical unit codes, `u3` (30_encoding R79). -/
def CanonUnit.code (u : CanonUnit) : BitVec 3 :=
  match u with
  | .volt => 0
  | .ampere => 1
  | .ohm => 2
  | .farad => 3
  | .hertz => 4
  | .percent => 5

/-- `NormMap`: the canonical unit and the exponent offset of a raw unit code; 15 is unmapped (30_encoding R77,
41_decoder R142). -/
def normMap (u : Nibble) : Option (CanonUnit × Int) :=
  match u.toNat with
  | 0 => some (.volt, 0)
  | 1 => some (.volt, -3)
  | 2 => some (.ampere, 0)
  | 3 => some (.ampere, -3)
  | 4 => some (.ampere, -6)
  | 5 => some (.ohm, 0)
  | 6 => some (.ohm, 3)
  | 7 => some (.ohm, 6)
  | 8 => some (.farad, -9)
  | 9 => some (.farad, -6)
  | 10 => some (.farad, -3)
  | 11 => some (.hertz, 0)
  | 12 => some (.hertz, 3)
  | 13 => some (.hertz, 6)
  | 14 => some (.percent, 0)
  | _ => none

end Sys2Proof
end

