-- ==== Sys2Proof/Syntax.lean ====
section
/-! DEFINITION. Syntax.lean: the core's instructions, one constructor per row of spec/opcode_table.json (30_encoding R80
for the command words, R74 for the measurement types of a frame), and the two forms an encoding takes. -/

namespace Sys2Proof

/-- The instructions. Operands the spec calls ignored are no arguments (30_encoding R81, R73). -/
inductive Instr where
  /-- IDLE: one byte-source call that yielded no byte (40_framer R108). -/
  | idle
  /-- PUSH: the byte-acceptance operation (42_stream_reader R180). -/
  | push (b : Byte)
  /-- DECODE: decode the snapshot frame on `FRAME_IN` (41_decoder R131). -/
  | decode (f : Frame)
  /-- RESET: restore the reset state (40_framer R109). -/
  | reset
  /-- RDSTART: begin one bounded frame read (42_stream_reader R184). -/
  | rdstart
  /-- RESERVED_OP5: OP = 101, reserved (30_encoding R84). -/
  | reservedOp5
  /-- RESERVED_OP6: OP = 110, reserved (30_encoding R84). -/
  | reservedOp6
  /-- RESERVED_OP7: OP = 111, reserved (30_encoding R84). -/
  | reservedOp7
  /-- MTYPE_0: the Decoder's run on a frame whose `F[6][3:0]` is 0 (30_encoding R74, 41_decoder R135). -/
  | mtype0 (f : Frame)
  /-- MTYPE_1: the Decoder's run on a frame whose `F[6][3:0]` is 1 (30_encoding R74, 41_decoder R135). -/
  | mtype1 (f : Frame)
  /-- MTYPE_2: the Decoder's run on a frame whose `F[6][3:0]` is 2 (30_encoding R74, 41_decoder R135). -/
  | mtype2 (f : Frame)
  /-- MTYPE_3: the Decoder's run on a frame whose `F[6][3:0]` is 3 (30_encoding R74, 41_decoder R135). -/
  | mtype3 (f : Frame)
  /-- MTYPE_4: the Decoder's run on a frame whose `F[6][3:0]` is 4 (30_encoding R74, 41_decoder R135). -/
  | mtype4 (f : Frame)
  /-- MTYPE_5: the Decoder's run on a frame whose `F[6][3:0]` is 5 (30_encoding R74, 41_decoder R135). -/
  | mtype5 (f : Frame)
  /-- MTYPE_6: the Decoder's run on a frame whose `F[6][3:0]` is 6 (30_encoding R74, 41_decoder R135). -/
  | mtype6 (f : Frame)
  /-- MTYPE_7: the Decoder's run on a frame whose `F[6][3:0]` is 7 (30_encoding R74, 41_decoder R135). -/
  | mtype7 (f : Frame)
  /-- MTYPE_8: the Decoder's run on a frame whose `F[6][3:0]` is 8 (30_encoding R74, 41_decoder R135). -/
  | mtype8 (f : Frame)
  /-- MTYPE_9: the Decoder's run on a frame whose `F[6][3:0]` is 9 (30_encoding R74, 41_decoder R135). -/
  | mtype9 (f : Frame)
  /-- MTYPE_10: the Decoder's run on a frame whose `F[6][3:0]` is 10 (30_encoding R74, 41_decoder R135). -/
  | mtype10 (f : Frame)
  /-- MTYPE_11: the Decoder's run on a frame whose `F[6][3:0]` is 11 (30_encoding R74, 41_decoder R135). -/
  | mtype11 (f : Frame)
  /-- MTYPE_12: the Decoder's run on a frame whose `F[6][3:0]` is 12 (30_encoding R74, 41_decoder R135). -/
  | mtype12 (f : Frame)
  /-- MTYPE_13: the Decoder's run on a frame whose `F[6][3:0]` is 13 (30_encoding R74, 41_decoder R135). -/
  | mtype13 (f : Frame)
  /-- MTYPE_14: the Decoder's run on a frame whose `F[6][3:0]` is 14 (30_encoding R74, 41_decoder R135). -/
  | mtype14 (f : Frame)
  /-- MTYPE_15: the Decoder's run on a frame whose `F[6][3:0]` is 15 (30_encoding R74, 41_decoder R135). -/
  | mtype15 (f : Frame)
deriving DecidableEq, Repr

/-- What the host presents in one step: the command word and the frame input beside it (30_encoding R80). -/
structure Input where
  cmd     : Cmd
  frameIn : Frame
deriving DecidableEq, Repr

/-- The core's two encodings: a command word with its frame input, and a frame, "which the Decoder reads the way a
processor reads an instruction word" (30_encoding). -/
inductive Code where
  | command (x : Input)
  | frame (f : Frame)
deriving DecidableEq, Repr

end Sys2Proof
end

