-- ==== Sys2Proof/WellFormed.lean ====
section
/-! DEFINITION. WellFormed.lean: which terms of `Instr` stand for an instruction. Every command is well-formed with any
operand (30_encoding R81); a measurement-type instruction carries a frame of that type (30_encoding R74). -/

namespace Sys2Proof

/-- A measurement-type instruction carries a frame whose `F[6][3:0]` is its code (30_encoding R72, R74). -/
def Instr.wellFormed (i : Instr) : Bool :=
  match i with
  | .idle => true
  | .push _ => true
  | .decode _ => true
  | .reset => true
  | .rdstart => true
  | .reservedOp5 => true
  | .reservedOp6 => true
  | .reservedOp7 => true
  | .mtype0 f => mtypeCode f == 0
  | .mtype1 f => mtypeCode f == 1
  | .mtype2 f => mtypeCode f == 2
  | .mtype3 f => mtypeCode f == 3
  | .mtype4 f => mtypeCode f == 4
  | .mtype5 f => mtypeCode f == 5
  | .mtype6 f => mtypeCode f == 6
  | .mtype7 f => mtypeCode f == 7
  | .mtype8 f => mtypeCode f == 8
  | .mtype9 f => mtypeCode f == 9
  | .mtype10 f => mtypeCode f == 10
  | .mtype11 f => mtypeCode f == 11
  | .mtype12 f => mtypeCode f == 12
  | .mtype13 f => mtypeCode f == 13
  | .mtype14 f => mtypeCode f == 14
  | .mtype15 f => mtypeCode f == 15

end Sys2Proof
end

