-- ==== Sys2Proof/Decode.lean ====
section
/-! DEFINITION. Decode.lean: from the bits of the two encodings to an instruction, total (30_encoding R81, R74), the
encoder written from the same tables (R80, R86, R71), and the table words the host asks about. -/

namespace Sys2Proof

/-- `CMD[10:8]` (30_encoding R80). -/
def cmdOp (cmd : Cmd) : BitVec 3 := cmd.extractLsb' 8 3

/-- `CMD[7:0]` (30_encoding R80). -/
def cmdData (cmd : Cmd) : Byte := cmd.extractLsb' 0 8

/-- The instruction of operation `op`, with data `d` and frame input `f` (30_encoding R80, R84). -/
def commandInstr (op : BitVec 3) (d : Byte) (f : Frame) : Instr :=
  match op.toNat with
  | 0 => .idle
  | 1 => .push d
  | 2 => .decode f
  | 3 => .reset
  | 4 => .rdstart
  | 5 => .reservedOp5
  | 6 => .reservedOp6
  | _ => .reservedOp7

/-- A command word decodes by `OP` alone to exactly one row; `DATA` is an operand only of PUSH and the frame input only of
DECODE (30_encoding R81). -/
def decodeCommand (x : Input) : Instr := commandInstr (cmdOp x.cmd) (cmdData x.cmd) x.frameIn

/-- The Decoder's instruction of measurement-type code `m` on the frame `f` (30_encoding R74, opcode table format
FRAME_B6). -/
def mtypeInstr (m : Nibble) (f : Frame) : Instr :=
  match m.toNat with
  | 0 => .mtype0 f
  | 1 => .mtype1 f
  | 2 => .mtype2 f
  | 3 => .mtype3 f
  | 4 => .mtype4 f
  | 5 => .mtype5 f
  | 6 => .mtype6 f
  | 7 => .mtype7 f
  | 8 => .mtype8 f
  | 9 => .mtype9 f
  | 10 => .mtype10 f
  | 11 => .mtype11 f
  | 12 => .mtype12 f
  | 13 => .mtype13 f
  | 14 => .mtype14 f
  | _ => .mtype15 f

/-- The Decoder reads a frame by `MTYPE = F[6][3:0]`: every frame selects exactly one of the sixteen rows (R72, R74). -/
def decodeFrameCode (f : Frame) : Instr := mtypeInstr (mtypeCode f) f

/-- The decoder, total on both encodings. -/
def decode (c : Code) : Instr :=
  match c with
  | .command x => decodeCommand x
  | .frame f => decodeFrameCode f

/-- The command word with operation `op` and data `d` (30_encoding R80). -/
def cmdWord (op : BitVec 3) (d : Byte) : Cmd := op ++ d

/-- The encoder: the assembler's words of 30_encoding R86 (zero in ignored `DATA`, and zero on the frame input where no
instruction reads it) and, for a measurement-type instruction, its frame (R71). -/
def encode (i : Instr) : Code :=
  match i with
  | .idle => .command ⟨cmdWord 0 0, 0⟩
  | .push b => .command ⟨cmdWord 1 b, 0⟩
  | .decode f => .command ⟨cmdWord 2 0, f⟩
  | .reset => .command ⟨cmdWord 3 0, 0⟩
  | .rdstart => .command ⟨cmdWord 4 0, 0⟩
  | .reservedOp5 => .command ⟨cmdWord 5 0, 0⟩
  | .reservedOp6 => .command ⟨cmdWord 6 0, 0⟩
  | .reservedOp7 => .command ⟨cmdWord 7 0, 0⟩
  | .mtype0 f => .frame f
  | .mtype1 f => .frame f
  | .mtype2 f => .frame f
  | .mtype3 f => .frame f
  | .mtype4 f => .frame f
  | .mtype5 f => .frame f
  | .mtype6 f => .frame f
  | .mtype7 f => .frame f
  | .mtype8 f => .frame f
  | .mtype9 f => .frame f
  | .mtype10 f => .frame f
  | .mtype11 f => .frame f
  | .mtype12 f => .frame f
  | .mtype13 f => .frame f
  | .mtype14 f => .frame f
  | .mtype15 f => .frame f

/-- Why bits are no instruction. -/
inductive DecodeReject where
  /-- A command word has 11 bits (30_encoding R83); this number does not fit. Raised by `tableCode`; safe. -/
  | notACommandWord (w : Nat)
  /-- Neither a command word, nor byte 6 of a frame, nor a whole frame. Raised by `tableCode`; safe. -/
  | badLength (nbits : Nat)
deriving DecidableEq, Repr

/-- The code that the opcode table's bits stand for. Format CMD11: a command word, 11 bits, held in 16; its frame input is
an operand the row gives no bits, zero. Format FRAME_B6: byte 6 of a frame whose other bytes are zero; 112 bits are a whole
frame (log 12, log 16). -/
def tableCode (nbits w : Nat) : Except DecodeReject Code :=
  if nbits = 16 ∨ nbits = 11 then
    if w < 2048 then .ok (.command ⟨BitVec.ofNat 11 w, 0⟩) else .error (.notACommandWord w)
  else if nbits = 8 ∨ nbits = 4 then .ok (.frame (BitVec.ofNat 112 (w % 256) <<< (48 : Nat)))
  else if nbits = 112 then .ok (.frame (BitVec.ofNat 112 w))
  else .error (.badLength nbits)

/-- The instruction the decoder reads from the bits of an opcode-table row. -/
def decodeTableWord (nbits w : Nat) : Option Instr :=
  match tableCode nbits w with
  | .ok c => some (decode c)
  | .error _ => none

/-- The command that makes the core run a code: a command word as it stands; a frame by the DECODE command with the frame
on `FRAME_IN` (41_decoder R130, R131). -/
def commandOf (c : Code) : Input :=
  match c with
  | .command x => x
  | .frame f => ⟨cmdWord 2 0, f⟩

end Sys2Proof
end

