-- ==== Sys2Proof/Machine/Flags.lean ====
section
/-! DEFINITION. Machine/Flags.lean: the thirteen status flags of a frame (30_encoding R72), their places in `FLAGS`
(10_state R41), and the signed mantissa the NEG flag makes (41_decoder R140). -/

namespace Sys2Proof

/-- OL, overload. -/
def flagOl (f : Frame) : Bool := frameBit f 7 0
/-- LOW_BAT, low battery. -/
def flagLowBat (f : Frame) : Bool := frameBit f 7 1
/-- NEG, the sign of the reading. -/
def flagNeg (f : Frame) : Bool := frameBit f 7 2
/-- PERCENT, which selects the Percent table. -/
def flagPercent (f : Frame) : Bool := frameBit f 7 3
/-- DELTA, relative mode. -/
def flagDelta (f : Frame) : Bool := frameBit f 8 1
/-- MIN, minimum hold. -/
def flagMin (f : Frame) : Bool := frameBit f 9 1
/-- MAX, maximum hold. -/
def flagMax (f : Frame) : Bool := frameBit f 9 2
/-- UL, under-range: byte 9 bit 3, not bit 1 (90_conflicts C1). -/
def flagUl (f : Frame) : Bool := frameBit f 9 3
/-- HZ, which selects the Frequency table. -/
def flagHz (f : Frame) : Bool := frameBit f 10 0
/-- AUTO, auto-range. -/
def flagAuto (f : Frame) : Bool := frameBit f 10 1
/-- AC. -/
def flagAc (f : Frame) : Bool := frameBit f 10 2
/-- DC. -/
def flagDc (f : Frame) : Bool := frameBit f 10 3
/-- HOLD. -/
def flagHold (f : Frame) : Bool := frameBit f 11 1

/-- `FLAGS`: bit 0 is OL and bit 12 HOLD, each a copy of its frame bit with no validation (10_state R41,
41_decoder R133). -/
def flagsOf (f : Frame) : BitVec 13 :=
  BitVec.ofBoolListLE
    [flagOl f, flagLowBat f, flagNeg f, flagPercent f, flagDelta f, flagMin f, flagMax f, flagUl f,
     flagHz f, flagAuto f, flagAc f, flagDc f, flagHold f]

/-- The mantissa of the signed scaled value, exact: a zero base has no sign (41_decoder R140, R141). -/
def signedMantissa (f : Frame) : Int :=
  if flagNeg f then -(baseValue f : Int) else (baseValue f : Int)

end Sys2Proof
end

