-- ==== Sys2Proof/Machine/Rom.lean ====
section
/-! DEFINITION. Machine/Rom.lean: reading the lookup ROMs (20_memory R54, R55; 10_state R32, R33) and the checks that admit a
configuration (41_decoder R155). -/

namespace Sys2Proof

/-- The entry a Measurement-Type ROM word holds: absent when `present` is 0; no table when `has_table` is 0 (10_state R32). -/
def MtWord.entry (w : MtWord) : Option MtEntry :=
  if w.present then some ⟨w.modeLabel, if w.hasTable then some w.table else none⟩ else none

/-- The slot a range ROM word holds: absent when `present` is 0 (10_state R33). -/
def RtWord.entry (w : RtWord) : Option RangeEntry :=
  if w.present then some ⟨w.rangeLabel, w.unit, w.scaleExp⟩ else none

/-- `MT[c]` (20_memory R54). -/
def Config.mtRead (c : Config) (m : Nibble) : Option MtEntry :=
  c.mt[m.toNat]?.bind MtWord.entry

/-- `RT[t][r]` (20_memory R55). A table that does not exist reads as absent; no decode under an admitted configuration forms
such an identifier (log 19, safe). -/
def Config.rtRead (c : Config) (t : Nibble) (r : BitVec 3) : Option RangeEntry :=
  c.rt[t.toNat]?.bind fun slots => slots[r.toNat]?.bind RtWord.entry

/-- WF1: sixteen entries, and 7, 8, 10 and 12 absent. -/
def Config.wf1 (c : Config) : Bool :=
  c.mt.length == 16 && [7, 8, 10, 12].all fun m => (c.mtRead m).isNone

/-- WF2: every range table has exactly eight slots. -/
def Config.wf2 (c : Config) : Bool := c.rt.all fun slots => slots.length == 8

/-- WF3: every present range entry has a non-empty label. Its scale factor is a power of ten with exponent in -32..31 by the
width of `scale_exp` (41_decoder R151). -/
def Config.wf3 (c : Config) : Bool :=
  c.rt.all fun slots => slots.all fun w => !w.present || w.rangeLabel != .empty

/-- WF4: every present entry that names a table names one that exists. -/
def Config.wf4 (c : Config) : Bool :=
  c.mt.all fun w => !(w.present && w.hasTable) || decide (w.table.toNat < c.rt.length)

/-- WF5: the tables 0 to 4 + NUM_CURRENT_TABLES exist, and no other (30_encoding R76; log 8). -/
def Config.wf5 (c : Config) : Bool := c.rt.length == 5 + c.numCurrent

/-- WF6: 2 ≤ NUM_CURRENT_TABLES ≤ 11. -/
def Config.wf6 (c : Config) : Bool := decide (2 ≤ c.numCurrent ∧ c.numCurrent ≤ 11)

/-- WF7: every present range entry has a mapped unit. A configuration that fails only this one is admitted. -/
def Config.wf7 (c : Config) : Bool :=
  c.rt.all fun slots => slots.all fun w => !w.present || decide (w.unit.toNat ≤ 14)

/-- A configuration is admitted when it passes WF1 to WF6 (41_decoder R155, 70 R232). -/
def Config.admitted (c : Config) : Bool :=
  c.wf1 && c.wf2 && c.wf3 && c.wf4 && c.wf5 && c.wf6

/-- The bounded reader's budget, 14 × K attempts (42_stream_reader R188). -/
def Config.budget (c : Config) : Nat := 14 * c.multiple.val

/-- The width of `ATTEMPTS`, `ceil(log2(14·K + 1))` bits, which is one more than `floor(log2(14·K))` (10_state R27). -/
def Config.attemptsWidth (c : Config) : Nat := Nat.log2 c.budget + 1

end Sys2Proof
end

