-- ==== Sys2Proof/Machine/State.lean ====
section
/-! DEFINITION. Machine/State.lean: the core's state (10_state R20 to R45), plain data; why a step can stop; the state after
reset. -/

namespace Sys2Proof.Machine

/-- The error and fault kinds with the info the model records, exhaustively (60_exceptions R201). `invariant` is the fatal
kind. -/
inductive ErrorInfo where
  | unknownMode (mode : Nibble)
  | noRangeTable (mode : Nibble)
  | unknownRange (table : Nibble) (range : BitVec 3)
  | readExhausted
  | invariant (unit : Nibble)
deriving DecidableEq, Repr

/-- The state of the core. The window `W` is the abstraction of `wmem`, `whead` and `wcnt` (10_state R22) and is computed,
not stored. The last three fields are the model's own. -/
structure State where
  /-- `WMEM[0..13]` (10_state R22). -/
  wmem : Vector Byte 14
  /-- `WHEAD`, the index in `WMEM` of the oldest byte (10_state R22). -/
  whead : BitVec 4
  /-- `WCNT`, the number of valid bytes (10_state R22). -/
  wcnt : BitVec 4
  /-- `PREV`, the byte most recently accepted by PUSH (10_state R23). -/
  prev : Byte
  /-- `RD_ACTIVE`, a bounded read is in progress (10_state R27). -/
  rdActive : Bool
  /-- `ATTEMPTS`, the attempts of the current bounded read (10_state R27). -/
  attempts : Nat
  /-- `FRAME_VALID` (10_state R25). -/
  frameValid : Bool
  /-- `FRAME_OUT`, packed as 30_encoding R71 (10_state R25). -/
  frameOut : Frame
  /-- `STATUS`, encoded as 30_encoding R82 (10_state R42). -/
  status : BitVec 3
  /-- `READING_VALID` (10_state R42). -/
  readingValid : Bool
  /-- `READING` (10_state R40, R42). -/
  reading : Reading
  /-- The configuration ROMs and parameters the core is built with: read-only (10_state R31). -/
  config : Config
  /-- The model's own: the error term of the last command, which has no port (60_exceptions R200, R201; log 11). -/
  errorInfo : Option ErrorInfo
  /-- The model's own: commands issued by the host and not yet processed, next first (30_encoding R80; log 1). -/
  inputs : List Input
  /-- The model's own: how many times free values have been drawn (log 3). -/
  free : Nat
deriving DecidableEq, Repr

/-- Why the machine stops with a fault. -/
inductive Fault where
  /-- INVARIANT: the unit code of a present range entry has no normalisation mapping (41_decoder R144, 60_exceptions R205).
  Raised by a decode (DECODE, a measurement-type instruction, a PUSH that emits). It carries the unit code and the state the
  hardware's step leaves: STATUS = 5, no Reading, the Framer as the step made it. Safe: the machine stops where the
  hardware goes on. -/
  | invariant (unit : Nibble) (left : State)
deriving DecidableEq, Repr

/-- Why the machine has no step. -/
inductive Refusal where
  /-- An instruction whose meaning is not written, by its mnemonic. Raised by no arm of this model; safe. -/
  | notModelled (mnemonic : String)
  /-- A command word with OP in 101, 110, 111: it has no meaning and the spec has the model refuse it (30_encoding R84).
  Raised by the three reserved instructions; safe. -/
  | reservedOperation (op : BitVec 3)
  /-- A command under a configuration that fails one of WF1 to WF6: "refused, with no step" (92 D37; 41_decoder R155,
  70 R232). Raised by every instruction but the reserved ones, which are refused by their own name; safe. -/
  | badConfiguration
deriving DecidableEq, Repr

/-- The core built with configuration `c`, right after reset (10_state R45, 70 R230, R233). `WMEM`, `FRAME_OUT` and `READING`
are unspecified by the spec and zero here (DESIGN CHOICE, log 6, unsafe). -/
def State.resetOf (c : Config) : State where
  wmem := Vector.replicate 14 0
  whead := 0
  wcnt := 0
  prev := 0x00
  rdActive := false
  attempts := 0
  frameValid := false
  frameOut := 0
  status := 0
  readingValid := false
  reading := ⟨0, 0, .empty, 0, 0, .empty, 0, 0, 0, 0, 0, 0⟩
  config := c
  errorInfo := none
  inputs := []
  free := 0

/-- The machine right after reset. -/
def State.reset : State := State.resetOf Config.blank

end Sys2Proof.Machine
end

