-- ==== Sys2Proof/Machine/Ops.lean ====
section
/-! DEFINITION. Machine/Ops.lean: the operations the meanings share: the output ports, raising an error (60_exceptions R200;
the core has no other exception entry and no return, R211, R212), the window (20_memory R51), the Framer's push
(40_framer R101), the Decoder (41_decoder R131), the bounded reader's attempt (42_stream_reader R185), fetching a command. -/

namespace Sys2Proof.Machine

/-- CR and LF, compared in all eight bits (00_scope R5, 40_framer R105). -/
def CR : Byte := 0x0D
def LF : Byte := 0x0A

/-- `FRAME_LEN = WIN_CAP` (00_scope R5). -/
def winCap : Nat := 14

/-- `STATUS = OK` (30_encoding R82). -/
def statusOk : BitVec 3 := 0

/-- The `STATUS` code of an error or fault kind (30_encoding R82, 60_exceptions R201). -/
def ErrorInfo.code (e : ErrorInfo) : BitVec 3 :=
  match e with
  | .unknownMode _ => 1
  | .noRangeTable _ => 2
  | .unknownRange _ _ => 3
  | .readExhausted => 4
  | .invariant _ => 5

/-! ### Admission -/

/-- A configuration that fails one of WF1 to WF6 "is refused, with no step" (92 D37; 41_decoder R155, 70 R232): the outcome of a
command, where the configuration is admitted. -/
def ifAdmitted (s : State) (o : Host.Outcome State Fault Refusal) : Host.Outcome State Fault Refusal :=
  if s.config.admitted then o else .refused .badConfiguration

/-! ### Output ports -/

/-- What every command starts with: no frame, no Reading, STATUS = OK (42_stream_reader R180, R182). `FRAME_OUT` and
`READING` hold any value from here until the step drives them (10_state R25, R42; log 3). -/
def clearOutputs (s : State) : State :=
  { s with
    frameValid := false
    frameOut := Config.freeFrame s.free
    status := statusOk
    readingValid := false
    reading := Config.freeReading s.free
    errorInfo := none
    free := s.free + 1 }

/-- `raise E(info)`: the status code, no Reading, and nothing else (60_exceptions R200). -/
def raise (e : ErrorInfo) (s : State) : State :=
  { s with status := e.code, readingValid := false, errorInfo := some e }

/-- A Reading returned: `STATUS <- OK`, `READING_VALID <- 1`, `READING <-` the record (41_decoder R131). -/
def showReading (r : Reading) (s : State) : State :=
  { s with status := statusOk, readingValid := true, reading := r, errorInfo := none }

/-- `emit F`: `FRAME_VALID <- 1`, `FRAME_OUT <- F` (00_scope R16, 10_state R25). -/
def emitFrame (f : Frame) (s : State) : State :=
  { s with frameValid := true, frameOut := f }

/-! ### The window -/

/-- The window `W`, oldest byte first: the abstraction function of 10_state R22. -/
def window (s : State) : List Byte :=
  (List.range s.wcnt.toNat).map fun i =>
    s.wmem[(s.whead.toNat + i) % 14]'(Nat.mod_lt _ (by decide))

/-- `WinAppend(b)` in the storage realisation: evict the oldest byte first if the window holds fourteen (20_memory R51). -/
def winAppend (b : Byte) (s : State) : State :=
  if s.wcnt.toNat = winCap then
    { s with
      wmem := s.wmem.setIfInBounds s.whead.toNat b
      whead := BitVec.ofNat 4 ((s.whead.toNat + 1) % winCap) }
  else
    { s with
      wmem := s.wmem.setIfInBounds ((s.whead.toNat + s.wcnt.toNat) % winCap) b
      wcnt := s.wcnt + 1 }

/-- `WinClear()`: `WCNT <- 0`, and `WHEAD` keeps its value (20_memory R51, 40_framer R114; log 5). The cells of `WMEM`, all
outside the window now, keep their bytes, the LF just appended among them, where 93 A12 gives them any value (DESIGN CHOICE,
log 23, unsafe for a claim about such a cell). -/
def winClear (s : State) : State := { s with wcnt := 0 }

/-- `PREV <- b`, in every branch of a push (40_framer R106). -/
def setPrev (b : Byte) (s : State) : State := { s with prev := b }

/-- `FramerPush(b)`: append, then test; emit and clear on a terminator at the fourteenth byte, clear on any other LF, else
keep accumulating (40_framer R101 to R106). In every branch the append writes its one cell of `WMEM` and the others keep their
bytes, also where they lie outside the window after it (log 23). -/
def framerPush (b : Byte) (s : State) : State × Option Frame :=
  let s1 := setPrev b (winAppend b s)
  let full := (window s1).length = winCap
  if b = LF ∧ s.prev = CR ∧ full then
    (emitFrame (packFrame (window s1)) (winClear s1), some (packFrame (window s1)))
  else if b = LF then
    (winClear s1, none)
  else
    (s1, none)

/-! ### The Decoder -/

/-- What a decode answers: a Reading, a recoverable error, or the invariant fault with the unit code (41_decoder R131). -/
inductive DecodeResult where
  | reading (r : Reading)
  | error (e : ErrorInfo)
  | invariant (unit : Nibble)
deriving DecidableEq, Repr

/-- The table of step 3, by fixed priority: PERCENT, then HZ, then the mode's own (41_decoder R136). -/
def selectTable (f : Frame) (me : MtEntry) : Option Nibble :=
  if flagPercent f then some 0
  else if flagHz f then some 1
  else me.table

/-- The Reading of mode `m`, entry `me`, table `t` and range entry `re`, with the canonical unit and offset of the entry's
unit (41_decoder R131, R140, R143, R145). The mantissa and the exponents are exact integers, narrowed to the widths of
10_state R40. -/
def mkReading (m : Nibble) (f : Frame) (me : MtEntry) (t : Nibble) (re : RangeEntry) (cu : CanonUnit) (uexp : Int) :
    Reading where
  flags := flagsOf f
  mode := m
  modeLabel := me.modeLabel
  table := t
  range := rangeCode f
  rangeLabel := re.rangeLabel
  unit := re.unit
  valMant := BitVec.ofInt 19 (signedMantissa f)
  valExp := re.scaleExp
  normUnit := cu.code
  normMant := BitVec.ofInt 19 (signedMantissa f)
  normExp := BitVec.ofInt 7 (re.scaleExp.toInt + uexp)

/-- `Decode(F)` with the mode code `m` of step 2: the five steps in order, the first failing one reported
(41_decoder R131, 60_exceptions R209). -/
def decodeAs (c : Config) (m : Nibble) (f : Frame) : DecodeResult :=
  match c.mtRead m with
  | none => .error (.unknownMode m)
  | some me =>
    match selectTable f me with
    | none => .error (.noRangeTable m)
    | some t =>
      match c.rtRead t (rangeCode f) with
      | none => .error (.unknownRange t (rangeCode f))
      | some re =>
        match normMap re.unit with
        | none => .invariant re.unit
        | some (cu, uexp) => .reading (mkReading m f me t re cu uexp)

/-- Drive the Decoder's output ports with a result (41_decoder R131, "Flags written"). -/
def present (r : DecodeResult) (s : State) : State :=
  match r with
  | .reading rd => showReading rd s
  | .error e => raise e s
  | .invariant u => raise (.invariant u) s

/-- The outcome of a step that ran a decode and leaves `s`: the invariant kind is a fault, everything else goes on
(60_exceptions R205; log 10). -/
def conclude (r : DecodeResult) (s : State) : Host.Outcome State Fault Refusal :=
  match r with
  | .reading _ => .next s
  | .error _ => .next s
  | .invariant u => .fault (.invariant u s)

/-- One step of the Decoder on a snapshot frame taken with mode code `m`: only the output ports are written (41_decoder
R131). -/
def decodeStep (m : Nibble) (f : Frame) (s : State) : Host.Outcome State Fault Refusal :=
  ifAdmitted s (conclude (decodeAs s.config m f) (present (decodeAs s.config m f) (clearOutputs s)))

/-! ### The bounded reader -/

/-- The read ends: `RD_ACTIVE <- 0 ; ATTEMPTS <- 0` (42_stream_reader R185). -/
def readerStop (s : State) : State := { s with rdActive := false, attempts := 0 }

/-- A read begins: `RD_ACTIVE <- 1 ; ATTEMPTS <- 0` (42_stream_reader R184). -/
def readerStart (s : State) : State := { s with rdActive := true, attempts := 0 }

/-- `ATTEMPTS <- n` at the register's width (10_state R27; log 13). -/
def countAttempt (n : Nat) (s : State) : State :=
  { s with attempts := n % 2 ^ s.config.attemptsWidth }

/-- `BoundedReaderAttempt(f)`, while a read is active: a frame ends the read, the budget spent without one raises
READ_EXHAUSTED, else the attempt is counted (42_stream_reader R185). -/
def readerAttempt (f : Option Frame) (s : State) : State :=
  if s.rdActive then
    match f with
    | some _ => readerStop s
    | none =>
      if s.attempts + 1 = s.config.budget then raise .readExhausted (readerStop s)
      else countAttempt (s.attempts + 1) s
  else s

/-! ### Reset -/

/-- The registers of `Reset()`; `WMEM` holds any value (40_framer R109, 10_state R45; log 4). -/
def resetRegisters (s : State) : State :=
  { s with
    wmem := Config.freeWmem s.free
    whead := 0
    wcnt := 0
    prev := 0x00
    rdActive := false
    attempts := 0 }

/-! ### Commands -/

/-- The commands left to process. -/
def setInputs (rest : List Input) (s : State) : State := { s with inputs := rest }

/-- Take the next command: its instruction, and the state with the command consumed (30_encoding R80, 20_memory R62). -/
def fetch (s : State) : Option (Instr × State) :=
  match s.inputs with
  | [] => none
  | x :: rest => some (decodeCommand x, setInputs rest s)

/-- "Between commands it simply holds its state" (60_exceptions R220; log 2). -/
def betweenCommands (s : State) : State := s

/-- Put a command in front of those the host has issued. -/
def issueNext (x : Input) (s : State) : State := setInputs (x :: s.inputs) s

end Sys2Proof.Machine
end

