-- ==== Sys2Proof/Machine/Decoder.lean ====
section
/-! DEFINITION. Machine/Decoder.lean: DECODE and the sixteen measurement-type rows (41_decoder R131, 30_encoding R74). -/

namespace Sys2Proof.Machine

/-- DECODE: decode the snapshot frame; Framer and reader unchanged (41_decoder R131). -/
def execDecode (f : Frame) (s : State) : Host.Outcome State Fault Refusal :=
  decodeStep (mtypeCode f) f s

/-- MTYPE_0: the Decoder's run with mode code 0. -/
def execMtype0 (f : Frame) (s : State) : Host.Outcome State Fault Refusal :=
  decodeStep 0 f s

/-- MTYPE_1: the Decoder's run with mode code 1. -/
def execMtype1 (f : Frame) (s : State) : Host.Outcome State Fault Refusal :=
  decodeStep 1 f s

/-- MTYPE_2: the Decoder's run with mode code 2. -/
def execMtype2 (f : Frame) (s : State) : Host.Outcome State Fault Refusal :=
  decodeStep 2 f s

/-- MTYPE_3: the Decoder's run with mode code 3. -/
def execMtype3 (f : Frame) (s : State) : Host.Outcome State Fault Refusal :=
  decodeStep 3 f s

/-- MTYPE_4: the Decoder's run with mode code 4. -/
def execMtype4 (f : Frame) (s : State) : Host.Outcome State Fault Refusal :=
  decodeStep 4 f s

/-- MTYPE_5: the Decoder's run with mode code 5. -/
def execMtype5 (f : Frame) (s : State) : Host.Outcome State Fault Refusal :=
  decodeStep 5 f s

/-- MTYPE_6: the Decoder's run with mode code 6. -/
def execMtype6 (f : Frame) (s : State) : Host.Outcome State Fault Refusal :=
  decodeStep 6 f s

/-- MTYPE_7: the Decoder's run with mode code 7 (absent in every admitted configuration: UNKNOWN_MODE, R202). -/
def execMtype7 (f : Frame) (s : State) : Host.Outcome State Fault Refusal :=
  decodeStep 7 f s

/-- MTYPE_8: the Decoder's run with mode code 8 (absent in every admitted configuration: UNKNOWN_MODE, R202). -/
def execMtype8 (f : Frame) (s : State) : Host.Outcome State Fault Refusal :=
  decodeStep 8 f s

/-- MTYPE_9: the Decoder's run with mode code 9. -/
def execMtype9 (f : Frame) (s : State) : Host.Outcome State Fault Refusal :=
  decodeStep 9 f s

/-- MTYPE_10: the Decoder's run with mode code 10 (absent in every admitted configuration: UNKNOWN_MODE, R202). -/
def execMtype10 (f : Frame) (s : State) : Host.Outcome State Fault Refusal :=
  decodeStep 10 f s

/-- MTYPE_11: the Decoder's run with mode code 11. -/
def execMtype11 (f : Frame) (s : State) : Host.Outcome State Fault Refusal :=
  decodeStep 11 f s

/-- MTYPE_12: the Decoder's run with mode code 12 (absent in every admitted configuration: UNKNOWN_MODE, R202). -/
def execMtype12 (f : Frame) (s : State) : Host.Outcome State Fault Refusal :=
  decodeStep 12 f s

/-- MTYPE_13: the Decoder's run with mode code 13. -/
def execMtype13 (f : Frame) (s : State) : Host.Outcome State Fault Refusal :=
  decodeStep 13 f s

/-- MTYPE_14: the Decoder's run with mode code 14. -/
def execMtype14 (f : Frame) (s : State) : Host.Outcome State Fault Refusal :=
  decodeStep 14 f s

/-- MTYPE_15: the Decoder's run with mode code 15. -/
def execMtype15 (f : Frame) (s : State) : Host.Outcome State Fault Refusal :=
  decodeStep 15 f s

end Sys2Proof.Machine
end

