-- ==== Sys2Proof/Machine/Framer.lean ====
section
/-! DEFINITION. Machine/Framer.lean: IDLE, PUSH and RESET (40_framer R108, R109; 42_stream_reader R180). -/

namespace Sys2Proof.Machine

/-- IDLE, under an admitted configuration: outputs inactive, Framer untouched, one attempt while a read is active
(40_framer R108). -/
def execIdle (s : State) : Host.Outcome State Fault Refusal :=
  ifAdmitted s (.next (readerAttempt none (clearOutputs s)))

/-- What PUSH does under an admitted configuration: the Framer's push, the decode of an emitted frame in the same step, then one
attempt while a read is active (42_stream_reader R180, R181). -/
def corePush (b : Byte) (s : State) : Host.Outcome State Fault Refusal :=
  match framerPush b (clearOutputs s) with
  | (s1, none) => .next (readerAttempt none s1)
  | (s1, some f) =>
    conclude (decodeAs s.config (mtypeCode f) f)
      (readerAttempt (some f) (present (decodeAs s.config (mtypeCode f) f) s1))

/-- PUSH (42_stream_reader R180). -/
def execPush (b : Byte) (s : State) : Host.Outcome State Fault Refusal :=
  ifAdmitted s (corePush b s)

/-- RESET, under an admitted configuration: the reset state, a bounded read abandoned without a status (40_framer R109,
70 R230). -/
def execReset (s : State) : Host.Outcome State Fault Refusal :=
  ifAdmitted s (.next (resetRegisters (clearOutputs s)))

end Sys2Proof.Machine
end

