-- ==== Sys2Proof/Machine/Reader.lean ====
section
/-! DEFINITION. Machine/Reader.lean: RDSTART (42_stream_reader R184). -/

namespace Sys2Proof.Machine

/-- RDSTART, under an admitted configuration: a read begins at zero attempts, also while one is active; the Framer is
untouched (42_stream_reader R184, R187). -/
def execRdstart (s : State) : Host.Outcome State Fault Refusal :=
  ifAdmitted s (.next (readerStart (clearOutputs s)))

end Sys2Proof.Machine
end

