-- ==== Sys2Proof/Machine/Reserved.lean ====
section
/-! DEFINITION. Machine/Reserved.lean: the reserved operations, which the spec has a model refuse (30_encoding R84, R87). -/

namespace Sys2Proof.Machine

/-- RESERVED_OP5: "A model *refuses* a command stream that contains one" (30_encoding R84). -/
def execReservedOp5 (_ : State) : Host.Outcome State Fault Refusal :=
  .refused (.reservedOperation 5)

/-- RESERVED_OP6: refused (30_encoding R84). -/
def execReservedOp6 (_ : State) : Host.Outcome State Fault Refusal :=
  .refused (.reservedOperation 6)

/-- RESERVED_OP7: refused (30_encoding R84). -/
def execReservedOp7 (_ : State) : Host.Outcome State Fault Refusal :=
  .refused (.reservedOperation 7)

end Sys2Proof.Machine
end

