-- ==== Sys2Proof/Machine/Dispatch.lean ====
section
/-! DEFINITION. Machine/Dispatch.lean: one arm per instruction. -/

namespace Sys2Proof.Machine

/-- What an instruction does. -/
def exec (i : Instr) (s : State) : Host.Outcome State Fault Refusal :=
  match i with
  | .idle => Sys2Proof.Machine.execIdle s
  | .push b => Sys2Proof.Machine.execPush b s
  | .decode f => Sys2Proof.Machine.execDecode f s
  | .reset => Sys2Proof.Machine.execReset s
  | .rdstart => Sys2Proof.Machine.execRdstart s
  | .reservedOp5 => Sys2Proof.Machine.execReservedOp5 s
  | .reservedOp6 => Sys2Proof.Machine.execReservedOp6 s
  | .reservedOp7 => Sys2Proof.Machine.execReservedOp7 s
  | .mtype0 f => Sys2Proof.Machine.execMtype0 f s
  | .mtype1 f => Sys2Proof.Machine.execMtype1 f s
  | .mtype2 f => Sys2Proof.Machine.execMtype2 f s
  | .mtype3 f => Sys2Proof.Machine.execMtype3 f s
  | .mtype4 f => Sys2Proof.Machine.execMtype4 f s
  | .mtype5 f => Sys2Proof.Machine.execMtype5 f s
  | .mtype6 f => Sys2Proof.Machine.execMtype6 f s
  | .mtype7 f => Sys2Proof.Machine.execMtype7 f s
  | .mtype8 f => Sys2Proof.Machine.execMtype8 f s
  | .mtype9 f => Sys2Proof.Machine.execMtype9 f s
  | .mtype10 f => Sys2Proof.Machine.execMtype10 f s
  | .mtype11 f => Sys2Proof.Machine.execMtype11 f s
  | .mtype12 f => Sys2Proof.Machine.execMtype12 f s
  | .mtype13 f => Sys2Proof.Machine.execMtype13 f s
  | .mtype14 f => Sys2Proof.Machine.execMtype14 f s
  | .mtype15 f => Sys2Proof.Machine.execMtype15 f s

end Sys2Proof.Machine
end

