-- ==== Sys2Proof/Machine/Step.lean ====
section
/-! DEFINITION. Machine/Step.lean: one step is the processing of one command (00_scope R11). -/

namespace Sys2Proof.Machine

/-- Process the next command; with none waiting, hold the state (00_scope R11, 20_memory R62, 60_exceptions R220). -/
def step (s : State) : Host.Outcome State Fault Refusal :=
  match fetch s with
  | none => .next (betweenCommands s)
  | some (i, s') => exec i s'

/-- `s` with the instruction of an opcode-table word as the next command (log 12): a measurement-type row is issued as DECODE
with its frame on `FRAME_IN`. Bits that are no instruction leave `s` as it is. -/
def State.withFetchWord (s : State) (nbits w : Nat) : State :=
  match tableCode nbits w with
  | .ok c => issueNext (commandOf c) s
  | .error _ => s

end Sys2Proof.Machine
end

