-- ==== Sys2Proof/Safety.lean ====
section
/-! DEFINITION. Safety.lean: the vocabulary of the claims: what a good state is (40_framer R110, 10_state R42, 42 R185), what a
command leaves alone, the Framer over byte sequences as the spec states it (40_framer R101, R111), the frame bits the Decoder
reads (30_encoding R72, R73). -/

namespace Sys2Proof

/-- The reserved instructions (30_encoding R84). -/
def Instr.isReserved (i : Instr) : Bool :=
  match i with
  | .reservedOp5 => true
  | .reservedOp6 => true
  | .reservedOp7 => true
  | _ => false

/-- IDLE and PUSH, the commands that count as attempts of a bounded read (42_stream_reader R185). -/
def Instr.isAttempt (i : Instr) : Bool :=
  match i with
  | .idle => true
  | .push _ => true
  | _ => false

end Sys2Proof

namespace Sys2Proof.Machine

/-! ### Good states -/

/-- The storage holds a value its registers take: `WHEAD` in 0..13, `WCNT` in 0..14 (40_framer R114, R110 I1). -/
abbrev StorageOk (s : State) : Prop := s.whead.toNat < 14 ∧ s.wcnt.toNat ≤ 14

/-- The window holds no LF, ends in `PREV` when not empty, and when empty `PREV` is 0x00 or LF (40_framer R110 I2 to I5). -/
abbrev WindowOk (s : State) : Prop :=
  LF ∉ window s ∧
  (window s = [] ∨ (window s).getLast? = some s.prev) ∧
  (window s = [] → s.prev = 0x00 ∨ s.prev = LF)

/-- An active read has attempts left; without one the counter is zero (42_stream_reader R184, R185). -/
abbrev ReaderOk (s : State) : Prop :=
  if s.rdActive then s.attempts < s.config.budget else s.attempts = 0

/-- The output ports agree with each other: a Reading only with STATUS = OK (10_state R42), STATUS the code of the recorded
error term and never INVARIANT after a step that goes on (60_exceptions R201, R205), no exhaustion beside a frame (R210), an
emitted frame ends in CR LF and has no other LF (40_framer R103). -/
abbrev OutputsOk (s : State) : Prop :=
  (s.readingValid = true → s.status = statusOk) ∧
  s.status = (s.errorInfo.map ErrorInfo.code).getD statusOk ∧
  s.status.toNat ≤ 4 ∧
  (s.status = ErrorInfo.code .readExhausted → s.frameValid = false) ∧
  (s.frameValid = true →
    frameByte s.frameOut 12 = CR ∧ frameByte s.frameOut 13 = LF ∧ LF ∉ (frameBytes s.frameOut).take 13)

/-- The invariant of the core. -/
abbrev CoreInv (s : State) : Prop := StorageOk s ∧ WindowOk s ∧ ReaderOk s ∧ OutputsOk s

/-! ### What a command leaves alone -/

/-- The Framer's registers are as before: `WMEM`, `WHEAD`, `WCNT` (so `W`) and `PREV`. -/
abbrev FramerSame (s t : State) : Prop :=
  t.wmem = s.wmem ∧ t.whead = s.whead ∧ t.wcnt = s.wcnt ∧ window t = window s ∧ t.prev = s.prev

/-- The bounded reader's registers are as before. -/
abbrev ReaderSame (s t : State) : Prop := t.rdActive = s.rdActive ∧ t.attempts = s.attempts

/-- The configuration and the commands still waiting are as before. -/
abbrev HostSame (s t : State) : Prop := t.config = s.config ∧ t.inputs = s.inputs

/-- No frame, no Reading, STATUS = OK. -/
abbrev OutputsIdle (t : State) : Prop :=
  t.frameValid = false ∧ t.status = statusOk ∧ t.readingValid = false ∧ t.errorInfo = none

/-- No frame, no Reading, and the error `e` on STATUS. -/
abbrev ReportsError (e : ErrorInfo) (t : State) : Prop :=
  t.frameValid = false ∧ t.status = e.code ∧ t.readingValid = false ∧ t.errorInfo = some e

/-- The bounded reader after a command that counts as an attempt and emitted no frame, with the status it reports
(42_stream_reader R185). The count is spoken of for a read within its budget, as every run keeps it. -/
abbrev AttemptWithoutFrame (s t : State) : Prop :=
  if s.rdActive then
    if s.attempts + 1 = s.config.budget then
      t.rdActive = false ∧ t.attempts = 0 ∧
        t.status = ErrorInfo.code .readExhausted ∧ t.errorInfo = some .readExhausted
    else
      t.rdActive = true ∧ (s.attempts < s.config.budget → t.attempts = s.attempts + 1) ∧
        t.status = statusOk ∧ t.errorInfo = none
  else
    t.rdActive = false ∧ t.attempts = s.attempts ∧ t.status = statusOk ∧ t.errorInfo = none

/-- The bounded reader after a command that emitted a frame: a read in progress is done (42_stream_reader R185). -/
abbrev AttemptWithFrame (s t : State) : Prop :=
  t.rdActive = false ∧ t.attempts = if s.rdActive then 0 else s.attempts

/-! ### The Framer over sequences -/

/-- The window after `WinAppend(b)`, as a sequence (20_memory R51). -/
def windowAppend (w : List Byte) (b : Byte) : List Byte :=
  if w.length = 14 then w.drop 1 ++ [b] else w ++ [b]

/-- `FramerPush(b)` over the sequence `W` and the previous byte: the window after it, and the bytes it emits
(40_framer R101). -/
def framerSpec (w : List Byte) (prev b : Byte) : List Byte × Option (List Byte) :=
  if b = LF ∧ prev = CR ∧ (windowAppend w b).length = 14 then ([], some (windowAppend w b))
  else if b = LF then ([], none)
  else (windowAppend w b, none)

/-- A push that completes a frame (40_framer R103). -/
abbrev Completes (s : State) (b : Byte) : Prop :=
  b = LF ∧ s.prev = CR ∧ (windowAppend (window s) b).length = 14

/-- The last `n` elements of a sequence. -/
def lastN (n : Nat) (w : List Byte) : List Byte := w.drop (w.length - n)

/-- The bytes after the last LF of a sequence (`b_(z+1), ..., b_t` of 40_framer R111). -/
def sinceLf (bytes : List Byte) : List Byte := (bytes.reverse.takeWhile (· ≠ LF)).reverse

/-- Push bytes one after another: the state after them and what each push emitted. -/
def pushAll (bytes : List Byte) (s : State) : State × List (Option Frame) :=
  match bytes with
  | [] => (s, [])
  | b :: rest =>
    ((pushAll rest (framerPush b s).1).1, (framerPush b s).2 :: (pushAll rest (framerPush b s).1).2)

/-! ### What the Decoder's instructions answer -/

/-- `i` runs the Decoder on the frame `f` with mode code `m`: DECODE with the frame's own `F[6][3:0]`, or a
measurement-type row with its code (41_decoder R131, 30_encoding R72, R74). -/
abbrev RunsDecoder (i : Instr) (m : Nibble) (f : Frame) : Prop :=
  (m = f.extractLsb' 48 4 ∧ i = .decode f) ∨
  (m = 0 ∧ i = .mtype0 f) ∨
  (m = 1 ∧ i = .mtype1 f) ∨
  (m = 2 ∧ i = .mtype2 f) ∨
  (m = 3 ∧ i = .mtype3 f) ∨
  (m = 4 ∧ i = .mtype4 f) ∨
  (m = 5 ∧ i = .mtype5 f) ∨
  (m = 6 ∧ i = .mtype6 f) ∨
  (m = 7 ∧ i = .mtype7 f) ∨
  (m = 8 ∧ i = .mtype8 f) ∨
  (m = 9 ∧ i = .mtype9 f) ∨
  (m = 10 ∧ i = .mtype10 f) ∨
  (m = 11 ∧ i = .mtype11 f) ∨
  (m = 12 ∧ i = .mtype12 f) ∨
  (m = 13 ∧ i = .mtype13 f) ∨
  (m = 14 ∧ i = .mtype14 f) ∨
  (m = 15 ∧ i = .mtype15 f)

/-- The table that step 3 selects, read off the frame's PERCENT bit `F[7][3]` and HZ bit `F[10][0]` (41_decoder R136). -/
abbrev TableChosen (f : Frame) (me : MtEntry) (t : Nibble) : Prop :=
  (f.getLsbD 59 = true ∧ t = 0) ∨
  (f.getLsbD 59 = false ∧ f.getLsbD 80 = true ∧ t = 1) ∨
  (f.getLsbD 59 = false ∧ f.getLsbD 80 = false ∧ me.table = some t)

/-- The number the five digit nibbles of bytes 1 to 5 stand for, each at face value (41_decoder R138). -/
def digitsValue (f : Frame) : Int :=
  10000 * (f.extractLsb' 8 4).toNat + 1000 * (f.extractLsb' 16 4).toNat + 100 * (f.extractLsb' 24 4).toNat +
    10 * (f.extractLsb' 32 4).toNat + (f.extractLsb' 40 4).toNat

/-- That number with the sign of the NEG bit `F[7][2]` (41_decoder R140). -/
def signedDigits (f : Frame) : Int := if f.getLsbD 58 then -digitsValue f else digitsValue f

/-- `FLAGS` holds the thirteen frame bits in the places of 10_state R41. -/
abbrev FlagsCopied (flags : BitVec 13) (f : Frame) : Prop :=
  flags.getLsbD 0 = f.getLsbD 56 ∧ flags.getLsbD 1 = f.getLsbD 57 ∧ flags.getLsbD 2 = f.getLsbD 58 ∧
  flags.getLsbD 3 = f.getLsbD 59 ∧ flags.getLsbD 4 = f.getLsbD 65 ∧ flags.getLsbD 5 = f.getLsbD 73 ∧
  flags.getLsbD 6 = f.getLsbD 74 ∧ flags.getLsbD 7 = f.getLsbD 75 ∧ flags.getLsbD 8 = f.getLsbD 80 ∧
  flags.getLsbD 9 = f.getLsbD 81 ∧ flags.getLsbD 10 = f.getLsbD 82 ∧ flags.getLsbD 11 = f.getLsbD 83 ∧
  flags.getLsbD 12 = f.getLsbD 89

/-- Every field of the Reading of frame `f` decoded with mode code `m`, entry `me`, table `t`, range entry `re`, canonical
unit `cu` and exponent offset `uexp`, as values (41_decoder R131, R138, R140, R143, R145). -/
abbrev ReadingIs (r : Reading) (f : Frame) (m : Nibble) (me : MtEntry) (t : Nibble) (re : RangeEntry) (cu : CanonUnit)
    (uexp : Int) : Prop :=
  FlagsCopied r.flags f ∧ r.mode = m ∧ r.modeLabel = me.modeLabel ∧ r.table = t ∧ r.range = f.extractLsb' 0 3 ∧
  r.rangeLabel = re.rangeLabel ∧ r.unit = re.unit ∧ r.valMant.toInt = signedDigits f ∧
  r.valExp.toInt = re.scaleExp.toInt ∧ r.normUnit = cu.code ∧ r.normMant.toInt = signedDigits f ∧
  r.normExp.toInt = re.scaleExp.toInt + uexp

/-! ### Frame bits -/

/-- The frame bits the Decoder reads, byte 0 first; it ignores every other (30_encoding R72, R73). -/
def fieldMask : Frame :=
  packFrame [0x07, 0x0F, 0x0F, 0x0F, 0x0F, 0x0F, 0x0F, 0x0F, 0x02, 0x0E, 0x0F, 0x02, 0x00, 0x00]

/-- A step that does not end in a fault. -/
abbrev SafeStep (s : State) : Prop := ∀ r, step s ≠ .fault r

end Sys2Proof.Machine
end

