-- ==== Sys2Proof/Certificates/Slice0/Obligations.lean ====
section
/-! DEFINITION. Certificates/Slice0/Obligations.lean: the statements for the provers. Each docstring names the rules of spec/
it formalises, or says which convention of the model it rests on. -/

open Sys2Proof Sys2Proof.Machine

/-! ### Encodings -/

/-- The words of 30_encoding R86 and 95 P1, P4, written out, decode to the commands they stand for, and the frame of DV1 to
its measurement-type row. -/
def Obligations.TabledWordsDecode : Prop :=
  decode (.command ⟨0b00000000000, 0⟩) = .idle ∧
  decode (.command ⟨0b00100111011, 0⟩) = .push 0x3B ∧
  decode (.command ⟨0b01000000000, 0x0A0D30383030303B333231303032⟩) = .decode 0x0A0D30383030303B333231303032 ∧
  decode (.command ⟨0b01100000000, 0⟩) = .reset ∧
  decode (.command ⟨0b10000000000, 0⟩) = .rdstart ∧
  decode (.command ⟨0b10100000000, 0⟩) = .reservedOp5 ∧
  decode (.frame 0x0A0D30383030303B333231303032) = .mtype11 0x0A0D30383030303B333231303032

/-- 30_encoding R81: a command word decodes by `OP` alone; `DATA` is an operand only of PUSH. -/
def Obligations.CommandsDecodeByOpAlone : Prop :=
  ∀ cmd frameIn, decodeCommand ⟨cmd, frameIn⟩ =
    if cmd.toNat < 0x100 then .idle
    else if cmd.toNat < 0x200 then .push (BitVec.ofNat 8 (cmd.toNat % 256))
    else if cmd.toNat < 0x300 then .decode frameIn
    else if cmd.toNat < 0x400 then .reset
    else if cmd.toNat < 0x500 then .rdstart
    else if cmd.toNat < 0x600 then .reservedOp5
    else if cmd.toNat < 0x700 then .reservedOp6
    else .reservedOp7

/-- Decode and encode agree on every well-formed instruction (30_encoding R80, R71, R74, R86). -/
def Obligations.DecodeOfEncode : Prop :=
  ∀ i : Instr, i.wellFormed = true → decode (encode i) = i

/-- Every code decodes to a well-formed instruction, and encoding that gives the code back but for bits its instruction
ignores: `DATA` of all but PUSH, the frame input of all but DECODE (30_encoding R81, R74). -/
def Obligations.EncodeOfDecode : Prop :=
  (∀ c : Code, (decode c).wellFormed = true) ∧
  (∀ f, encode (decode (.frame f)) = .frame f) ∧
  (∀ x, ∃ y, encode (decode (.command x)) = .command y ∧ y.cmd.extractLsb' 8 3 = x.cmd.extractLsb' 8 3 ∧
    (x.cmd.extractLsb' 8 3 = 1#3 → y.cmd = x.cmd) ∧ (x.cmd.extractLsb' 8 3 = 2#3 → y.frameIn = x.frameIn))

/-! ### Steps and reset -/

/-- The next command is taken and run on the state with that command consumed (00_scope R11, 20_memory R62; the waiting
commands are the model's own field, log 1). -/
def Obligations.StepRunsTheNextCommand : Prop :=
  ∀ s x rest, s.inputs = x :: rest → step s = exec (decodeCommand x) { s with inputs := rest }

/-- A DECODE command runs the measurement-type row that its frame's byte 6 selects (30_encoding R74, 41_decoder R131;
log 12). -/
def Obligations.StepRunsTheFramesRow : Prop :=
  ∀ s cmd f rest, s.inputs = ⟨cmd, f⟩ :: rest → cmd.extractLsb' 8 3 = 2#3 →
    step s = exec (decode (.frame f)) { s with inputs := rest }

/-- The word of an opcode-table row, placed by the host, is the instruction that the very next step runs; the state is as before
the placement but for that command (log 12). -/
def Obligations.PlacedWordRunsNext : Prop :=
  ∀ s nbits w i, decodeTableWord nbits w = some i → step (s.withFetchWord nbits w) = exec i s

/-- With no command waiting the state is held. The model's reading of 60_exceptions R220 "Between commands it simply holds its
state" (log 2). -/
def Obligations.StepHoldsWithoutACommand : Prop :=
  ∀ s, s.inputs = [] → step s = .next s

/-- 10_state R45: the reset values the spec gives, for the core built with any configuration. -/
def Obligations.ResetValues : Prop :=
  ∀ c, window (State.resetOf c) = [] ∧ (State.resetOf c).wcnt = 0 ∧ (State.resetOf c).whead = 0 ∧
    (State.resetOf c).prev = 0x00 ∧ (State.resetOf c).rdActive = false ∧ (State.resetOf c).attempts = 0 ∧
    (State.resetOf c).frameValid = false ∧ (State.resetOf c).status = 0 ∧
    (State.resetOf c).readingValid = false ∧ (State.resetOf c).config = c

/-- The invariant holds of every reset core. -/
def Obligations.ResetMeetsTheInvariant : Prop := ∀ c, CoreInv (State.resetOf c)

/-- 40_framer R109: RESET, from every state of a core with an admitted configuration (70 R232). `WMEM`, `FRAME_OUT` and
`READING` are not spoken of: any value. -/
def Obligations.ResetCommand : Prop :=
  ∀ s, s.config.admitted = true →
    ∃ t, exec .reset s = .next t ∧ window t = [] ∧ t.wcnt = 0 ∧ t.whead = 0 ∧ t.prev = 0x00 ∧ t.rdActive = false ∧
    t.attempts = 0 ∧ OutputsIdle t ∧ HostSame s t

/-! ### IDLE, RDSTART and the reserved commands -/

/-- 40_framer R108: IDLE leaves the Framer alone, shows no frame and no Reading, and is one attempt while a read is active; from
every state of a core with an admitted configuration (70 R232). -/
def Obligations.IdleCommand : Prop :=
  ∀ s, s.config.admitted = true →
    ∃ t, exec .idle s = .next t ∧ FramerSame s t ∧ HostSame s t ∧ t.frameValid = false ∧ t.readingValid = false ∧
    AttemptWithoutFrame s t

/-- 42_stream_reader R184: RDSTART begins a read at zero attempts, active or not, and leaves the Framer alone; from every state
of a core with an admitted configuration (70 R232). -/
def Obligations.RdstartCommand : Prop :=
  ∀ s, s.config.admitted = true →
    ∃ t, exec .rdstart s = .next t ∧ t.rdActive = true ∧ t.attempts = 0 ∧ FramerSame s t ∧ HostSame s t ∧
    OutputsIdle t

/-- 30_encoding R84: the reserved operations are refused, whatever the state. -/
def Obligations.ReservedCommandsAreRefused : Prop :=
  ∀ s, exec .reservedOp5 s = .refused (.reservedOperation 5) ∧ exec .reservedOp6 s = .refused (.reservedOperation 6) ∧
    exec .reservedOp7 s = .refused (.reservedOperation 7)

/-! ### PUSH -/

/-- 40_framer R105: a byte other than LF is appended, the oldest evicted from a full window; nothing is emitted or cleared. -/
def Obligations.PushAccumulates : Prop :=
  ∀ s b, StorageOk s → s.config.admitted = true → b ≠ 0x0A →
    ∃ t, exec (.push b) s = .next t ∧
      window t = (if (window s).length = 14 then (window s).drop 1 ++ [b] else window s ++ [b]) ∧
      t.prev = b ∧ t.frameValid = false ∧ t.readingValid = false ∧ AttemptWithoutFrame s t ∧ HostSame s t

/-- 40_framer R104: an LF that does not complete a frame clears the window and emits nothing. -/
def Obligations.PushResynchronises : Prop :=
  ∀ s, StorageOk s → s.config.admitted = true → ¬ (s.prev = 0x0D ∧ 13 ≤ (window s).length) →
    ∃ t, exec (.push 0x0A) s = .next t ∧ window t = [] ∧ t.prev = 0x0A ∧ t.frameValid = false ∧
      t.readingValid = false ∧ AttemptWithoutFrame s t ∧ HostSame s t

/-- A completing LF emits the last fourteen bytes and decodes them in the same step; when the decode succeeds, the frame and
the Reading are shown together and a read in progress is done (42_stream_reader R180, 40_framer R103, 41_decoder R131). -/
def Obligations.PushEmitsAndReads : Prop :=
  ∀ s f me tb re cu uexp, StorageOk s → s.config.admitted = true → s.prev = 0x0D → 13 ≤ (window s).length →
    frameBytes f = lastN 13 (window s) ++ [0x0A] → s.config.mtRead (f.extractLsb' 48 4) = some me →
    TableChosen f me tb → s.config.rtRead tb (f.extractLsb' 0 3) = some re → normMap re.unit = some (cu, uexp) →
    ∃ t, exec (.push 0x0A) s = .next t ∧ t.frameValid = true ∧ t.frameOut = f ∧ t.status = 0 ∧
      t.readingValid = true ∧ ReadingIs t.reading f (f.extractLsb' 48 4) me tb re cu uexp ∧ t.errorInfo = none ∧
      window t = [] ∧ t.prev = 0x0A ∧ AttemptWithFrame s t ∧ HostSame s t

/-- A completing LF does to the Decoder's ports what DECODE of the emitted frame does, error, fault and refusal included, and
leaves the Framer and the reader as the emission makes them whether the decode goes on or faults (42_stream_reader R180, R181).
That the fault carries the state the step leaves is the model's choice (log 10). -/
def Obligations.PushDecodesAsDecodeDoes : Prop :=
  ∀ s f, StorageOk s → s.prev = 0x0D → 13 ≤ (window s).length → frameBytes f = lastN 13 (window s) ++ [0x0A] →
    (∀ d, exec (.decode f) s = .next d →
      ∃ t, exec (.push 0x0A) s = .next t ∧ t.frameValid = true ∧ t.frameOut = f ∧ t.status = d.status ∧
        t.readingValid = d.readingValid ∧ (d.readingValid = true → t.reading = d.reading) ∧ t.errorInfo = d.errorInfo ∧
        window t = [] ∧ t.prev = 0x0A ∧ AttemptWithFrame s t ∧ HostSame s t) ∧
    (∀ u d, exec (.decode f) s = .fault (.invariant u d) →
      ∃ t, exec (.push 0x0A) s = .fault (.invariant u t) ∧ t.frameValid = true ∧ t.frameOut = f ∧ t.status = 5 ∧
        t.readingValid = false ∧ window t = [] ∧ t.prev = 0x0A ∧ AttemptWithFrame s t ∧ HostSame s t) ∧
    (exec (.decode f) s = .refused .badConfiguration → exec (.push 0x0A) s = .refused .badConfiguration)

/-- The storage registers after PUSH, in every branch: one cell of WMEM takes the byte and the other thirteen are unchanged; WHEAD
moves on only from a full window; WCNT counts up to fourteen and is zero after LF (20_memory R51, 40_framer R101). What it says of
WHEAD after a clear (log 5) and of the cells outside the window, all of them after a clear (log 23), is the model's choice. -/
def Obligations.PushWritesOneCell : Prop :=
  ∀ s b t, StorageOk s → exec (.push b) s = .next t →
    (∀ k (h : k < 14), t.wmem[k] = if k = (s.whead.toNat + s.wcnt.toNat) % 14 then b else s.wmem[k]) ∧
    t.whead.toNat = (if s.wcnt.toNat = 14 then (s.whead.toNat + 1) % 14 else s.whead.toNat) ∧
    t.wcnt.toNat = (if b = 0x0A then 0 else min 14 (s.wcnt.toNat + 1))

/-- 40_framer R106: PUSH sets PREV in every branch, and no other command but RESET writes it. -/
def Obligations.PrevIsTheLastPushedByte : Prop :=
  (∀ b s t, exec (.push b) s = .next t → t.prev = b) ∧
  (∀ i s t, exec i s = .next t → (∀ b, i ≠ .push b) → i ≠ .reset → t.prev = s.prev)

/-! ### The Framer -/

/-- The storage realisation does what the sequence does: one push of the Framer, from every state whose storage registers are
in range (10_state R22, 20_memory R51, 40_framer R101). -/
def Obligations.FramerStorageRefinesTheSequence : Prop :=
  ∀ s b, StorageOk s →
    window (framerPush b s).1 = (framerSpec (window s) s.prev b).1 ∧
    (framerPush b s).2.map frameBytes = (framerSpec (window s) s.prev b).2 ∧
    (framerPush b s).1.prev = b ∧ StorageOk (framerPush b s).1

/-- 40_framer R103: a push emits exactly when the three conditions hold; what it emits is the appended window; every emitted
frame has CR and LF in its last two places and no other LF; after it the window is empty. -/
def Obligations.CompletionCondition : Prop :=
  ∀ s b, StorageOk s → WindowOk s →
    ((∃ f, (framerPush b s).2 = some f) ↔
      b = 0x0A ∧ s.prev = 0x0D ∧ (windowAppend (window s) b).length = 14) ∧
    (∀ f, (framerPush b s).2 = some f →
      frameBytes f = windowAppend (window s) b ∧ frameByte f 12 = 0x0D ∧ frameByte f 13 = 0x0A ∧
      (∀ k, k < 13 → frameByte f k ≠ 0x0A) ∧ window (framerPush b s).1 = [])

/-- The register PREV is not needed: in a good state the emission test gives the same answer when the previous byte is taken
from the appended window (10_state R24). -/
def Obligations.PrevCanBeReadFromTheWindow : Prop :=
  ∀ s b, StorageOk s → WindowOk s →
    ((∃ f, (framerPush b s).2 = some f) ↔
      b = 0x0A ∧ (windowAppend (window s) b).length = 14 ∧ (windowAppend (window s) b)[12]? = some 0x0D)

/-- 40_framer R111: after any bytes from reset the window is the last fourteen of those since the last LF, and one more byte
emits exactly when it is an LF after a CR with thirteen bytes since the last LF; the frame is the last fourteen bytes. -/
def Obligations.FramerClosedForm : Prop :=
  ∀ c bytes b, window (pushAll bytes (State.resetOf c)).1 = lastN 14 (sinceLf bytes) ∧
    ((∃ f, (framerPush b (pushAll bytes (State.resetOf c)).1).2 = some f) ↔
      b = 0x0A ∧ bytes.getLast? = some 0x0D ∧ 13 ≤ (sinceLf bytes).length) ∧
    (∀ f, (framerPush b (pushAll bytes (State.resetOf c)).1).2 = some f →
      frameBytes f = lastN 14 (bytes ++ [b]))

/-- 40_framer R113: twelve bytes that are not LF, then CR LF, into a fresh Framer emit exactly one frame, equal to the
fourteen bytes, at the fourteenth push. -/
def Obligations.TwelveBytesAndATerminatorMakeOneFrame : Prop :=
  ∀ c (payload : List Byte), payload.length = 12 → 0x0A ∉ payload →
    ∃ f, frameBytes f = payload ++ [0x0D, 0x0A] ∧
      (pushAll (payload ++ [0x0D, 0x0A]) (State.resetOf c)).2 = List.replicate 13 none ++ [some f]

/-- The first frame after reset needs fourteen bytes (70 R231, its first sentence). -/
def Obligations.NoFrameBeforeTheFourteenthPush : Prop :=
  ∀ c (bytes : List Byte), bytes.length ≤ 13 → ∀ e ∈ (pushAll bytes (State.resetOf c)).2, e = none

/-- 70 R239: of two device frames, a corrupted LF or a corrupted CR in the first loses only the first. -/
def Obligations.ALostTerminatorLosesOneFrame : Prop :=
  ∀ s (p q : List Byte) (x : Byte), StorageOk s → window s = [] → p.length = 12 → q.length = 12 → 0x0A ∉ p → 0x0A ∉ q →
    (x ≠ 0x0A → ∃ f, frameBytes f = q ++ [0x0D, 0x0A] ∧
      (pushAll (p ++ [0x0D, x] ++ q ++ [0x0D, 0x0A]) s).2 = List.replicate 27 none ++ [some f]) ∧
    (x ≠ 0x0D → ∃ f, frameBytes f = q ++ [0x0D, 0x0A] ∧
      (pushAll (p ++ [x, 0x0A] ++ q ++ [0x0D, 0x0A]) s).2 = List.replicate 27 none ++ [some f])

/-- Only PUSH and RESET write the Framer (20_memory R58, 40_framer R108, 41_decoder R131, 42_stream_reader R187). -/
def Obligations.OnlyPushAndResetWriteTheFramer : Prop :=
  ∀ i s t, exec i s = .next t → (∀ b, i ≠ .push b) → i ≠ .reset → FramerSame s t

/-- 40_framer R114: the storage registers stay in range, and WHEAD changes only when a byte is appended to a full window or at
RESET. -/
def Obligations.StorageRegistersStayInRange : Prop :=
  ∀ i s t, StorageOk s → exec i s = .next t →
    StorageOk t ∧ (t.whead ≠ s.whead → i = .reset ∨ ((∃ b, i = .push b) ∧ s.wcnt.toNat = 14))

/-! ### The Decoder -/

/-- The Reading that DECODE and each measurement-type row return, field by field, and that they touch nothing but the output
ports (41_decoder R131, R133, R138, R140, R143, R145). -/
def Obligations.DecodeReturnsTheReading : Prop :=
  ∀ i m f s me tb re cu uexp, RunsDecoder i m f → s.config.admitted = true → s.config.mtRead m = some me →
    TableChosen f me tb → s.config.rtRead tb (f.extractLsb' 0 3) = some re → normMap re.unit = some (cu, uexp) →
    ∃ t, exec i s = .next t ∧ t.frameValid = false ∧ t.status = 0 ∧ t.readingValid = true ∧
      ReadingIs t.reading f m me tb re cu uexp ∧ t.errorInfo = none ∧ FramerSame s t ∧ ReaderSame s t ∧ HostSame s t

/-- An absent mode code is reported as UNKNOWN_MODE whatever the frame's flags, and nothing but the ports is touched
(41_decoder R135, 60_exceptions R202). -/
def Obligations.AbsentModeIsReported : Prop :=
  ∀ i m f s, RunsDecoder i m f → s.config.admitted = true → s.config.mtRead m = none →
    ∃ t, exec i s = .next t ∧ ReportsError (.unknownMode m) t ∧ t.status = 1 ∧ FramerSame s t ∧ ReaderSame s t ∧
      HostSame s t

/-- The codes 7, 8, 10 and 12 are absent in every admitted configuration: their rows, and DECODE of a frame that carries one,
always answer UNKNOWN_MODE (30_encoding R74, 41_decoder R155 WF1). -/
def Obligations.CodesSevenEightTenTwelveAreUnknown : Prop :=
  ∀ f s, s.config.admitted = true →
    (∃ t, exec (.mtype7 f) s = .next t ∧ ReportsError (.unknownMode 7) t ∧ t.status = 1) ∧
    (∃ t, exec (.mtype8 f) s = .next t ∧ ReportsError (.unknownMode 8) t ∧ t.status = 1) ∧
    (∃ t, exec (.mtype10 f) s = .next t ∧ ReportsError (.unknownMode 10) t ∧ t.status = 1) ∧
    (∃ t, exec (.mtype12 f) s = .next t ∧ ReportsError (.unknownMode 12) t ∧ t.status = 1) ∧
    (f.extractLsb' 48 4 = 7#4 ∨ f.extractLsb' 48 4 = 8#4 ∨ f.extractLsb' 48 4 = 10#4 ∨ f.extractLsb' 48 4 = 12#4 →
      ∃ t, exec (.decode f) s = .next t ∧ ReportsError (.unknownMode (f.extractLsb' 48 4)) t ∧ t.status = 1)

/-- 60_exceptions R203: a present mode without a table, with PERCENT and HZ clear, is reported as NO_RANGE_TABLE. -/
def Obligations.ModeWithoutTableIsReported : Prop :=
  ∀ i m f s me, RunsDecoder i m f → s.config.admitted = true → s.config.mtRead m = some me → me.table = none →
    f.getLsbD 59 = false → f.getLsbD 80 = false →
    ∃ t, exec i s = .next t ∧ ReportsError (.noRangeTable m) t ∧ t.status = 2 ∧ FramerSame s t ∧ ReaderSame s t ∧
      HostSame s t

/-- 60_exceptions R204: an absent slot of the selected table is reported as UNKNOWN_RANGE. -/
def Obligations.AbsentRangeIsReported : Prop :=
  ∀ i m f s me tb, RunsDecoder i m f → s.config.admitted = true → s.config.mtRead m = some me → TableChosen f me tb →
    s.config.rtRead tb (f.extractLsb' 0 3) = none →
    ∃ t, exec i s = .next t ∧ ReportsError (.unknownRange tb (f.extractLsb' 0 3)) t ∧ t.status = 3 ∧
      FramerSame s t ∧ ReaderSame s t ∧ HostSame s t

/-- A range entry with an unmapped unit ends in the invariant fault, with STATUS = 5 on the ports and Framer and reader
unaffected (41_decoder R144, 60_exceptions R205). That the fault carries the state in which this is read is the model's choice
(log 10). -/
def Obligations.UnmappedUnitFaults : Prop :=
  ∀ i m f s me tb re, RunsDecoder i m f → s.config.admitted = true → s.config.mtRead m = some me → TableChosen f me tb →
    s.config.rtRead tb (f.extractLsb' 0 3) = some re → re.unit = 15#4 →
    ∃ t, exec i s = .fault (.invariant re.unit t) ∧ ReportsError (.invariant re.unit) t ∧ t.status = 5 ∧
      FramerSame s t ∧ ReaderSame s t ∧ HostSame s t

/-- 60_exceptions R209: one decode reports at most one error, the first check that fails in the order UNKNOWN_MODE,
NO_RANGE_TABLE, UNKNOWN_RANGE, INVARIANT; and a Reading exactly when none fails. -/
def Obligations.TheFirstFailingCheckIsReported : Prop :=
  ∀ i m f s, RunsDecoder i m f → s.config.admitted = true →
    (∀ t, exec i s = .next t →
      (t.status = 1 ↔ s.config.mtRead m = none) ∧
      (t.status = 2 ↔ ∃ me, s.config.mtRead m = some me ∧ ∀ tb, ¬ TableChosen f me tb) ∧
      (t.status = 3 ↔ ∃ me tb, s.config.mtRead m = some me ∧ TableChosen f me tb ∧
        s.config.rtRead tb (f.extractLsb' 0 3) = none) ∧
      (t.readingValid = true ↔ ∃ me tb re, s.config.mtRead m = some me ∧ TableChosen f me tb ∧
        s.config.rtRead tb (f.extractLsb' 0 3) = some re ∧ re.unit ≠ 15#4) ∧
      (t.readingValid = true ↔ t.status = 0)) ∧
    ((∃ u t, exec i s = .fault (.invariant u t)) ↔ ∃ me tb re, s.config.mtRead m = some me ∧ TableChosen f me tb ∧
      s.config.rtRead tb (f.extractLsb' 0 3) = some re ∧ re.unit = 15#4)

/-- 41_decoder R136: the table by fixed priority PERCENT, HZ, the mode's own, and NO_RANGE_TABLE when nothing selects one; the mode
fields of a Reading come from the frame's own mode. -/
def Obligations.PercentThenHzThenMode : Prop :=
  ∀ f s t me, exec (.decode f) s = .next t → s.config.mtRead (f.extractLsb' 48 4) = some me →
    (t.readingValid = true → t.reading.mode = f.extractLsb' 48 4 ∧ t.reading.modeLabel = me.modeLabel ∧
      TableChosen f me t.reading.table) ∧
    (∀ tb r, t.errorInfo = some (.unknownRange tb r) → TableChosen f me tb ∧ r = f.extractLsb' 0 3) ∧
    (t.errorInfo = some (.noRangeTable (f.extractLsb' 48 4)) ↔
      f.getLsbD 59 = false ∧ f.getLsbD 80 = false ∧ me.table = none)

/-- 41_decoder R138: the base value is the five nibbles at their decimal weights, at most 166665. -/
def Obligations.BaseValueWeighsFiveNibbles : Prop :=
  ∀ f, baseValue f = 10000 * (digit f 1).toNat + 1000 * (digit f 2).toNat + 100 * (digit f 3).toNat +
      10 * (digit f 4).toNat + (digit f 5).toNat ∧ baseValue f ≤ 166665

/-- No arithmetic of the Decoder overflows its width: in every Reading a decode answers, the mantissa is the exact signed base
value, the normalised mantissa is the scaled one, the normalised exponent is the exact sum of the scale exponent and the unit's
offset, and each lies in its range of 10_state R43 (41_decoder R140, R143). -/
def Obligations.ReadingValuesFitTheirWidths : Prop :=
  ∀ c m f r, decodeAs c m f = .reading r →
    r.valMant.toInt = signedDigits f ∧ -166665 ≤ r.valMant.toInt ∧ r.valMant.toInt ≤ 166665 ∧ r.normMant = r.valMant ∧
    -32 ≤ r.valExp.toInt ∧ r.valExp.toInt ≤ 31 ∧ -41 ≤ r.normExp.toInt ∧ r.normExp.toInt ≤ 37 ∧
    ∃ cu uexp, normMap r.unit = some (cu, uexp) ∧ r.normUnit = cu.code ∧ r.normExp.toInt = r.valExp.toInt + uexp

/-- 41_decoder R141: a zero base with NEG set gives mantissa 0, and NEG stays visible as FLAGS bit 2. -/
def Obligations.ZeroHasNoSign : Prop :=
  ∀ i m f s t, RunsDecoder i m f → exec i s = .next t → t.readingValid = true → digitsValue f = 0 →
    f.getLsbD 58 = true → t.reading.valMant = 0 ∧ t.reading.flags.getLsbD 2 = true

/-- 41_decoder R142: the normalisation map, all sixteen raw unit codes with the canonical codes of 30_encoding R79. -/
def Obligations.NormalisationMap : Prop :=
  [normMap 0, normMap 1, normMap 2, normMap 3, normMap 4, normMap 5, normMap 6, normMap 7] =
    [some (.volt, 0), some (.volt, -3), some (.ampere, 0), some (.ampere, -3), some (.ampere, -6), some (.ohm, 0),
      some (.ohm, 3), some (.ohm, 6)] ∧
  [normMap 8, normMap 9, normMap 10, normMap 11, normMap 12, normMap 13, normMap 14, normMap 15] =
    [some (.farad, -9), some (.farad, -6), some (.farad, -3), some (.hertz, 0), some (.hertz, 3), some (.hertz, 6),
      some (.percent, 0), none] ∧
  [CanonUnit.volt, .ampere, .ohm, .farad, .hertz, .percent].map CanonUnit.code = [0#3, 1#3, 2#3, 3#3, 4#3, 5#3]

/-- 30_encoding R73: the frame bits outside the fields change nothing: two frames that agree on the fields decode alike in
every respect, fault and refusal included. -/
def Obligations.IgnoredFrameBitsHaveNoEffect : Prop :=
  ∀ f g s, f &&& fieldMask = g &&& fieldMask → exec (.decode f) s = exec (.decode g) s

/-- 41_decoder R158: bytes 12 and 13 are not read. -/
def Obligations.TerminatorIsNotChecked : Prop :=
  ∀ f g s, (∀ k, k < 12 → frameByte f k = frameByte g k) → exec (.decode f) s = exec (.decode g) s

/-- 41_decoder R134: two decodes of one frame under one configuration, from any two states, give the same outcome: status,
error term, Reading in every field, fault or refusal. -/
def Obligations.DecodeIsDeterminedByFrameAndRoms : Prop :=
  ∀ i m f s s', RunsDecoder i m f → s.config = s'.config →
    (∀ t, exec i s = .next t → ∃ t', exec i s' = .next t' ∧ t'.status = t.status ∧ t'.errorInfo = t.errorInfo ∧
      t'.readingValid = t.readingValid ∧ (t.readingValid = true → t'.reading = t.reading)) ∧
    (∀ u t, exec i s = .fault (.invariant u t) → ∃ t', exec i s' = .fault (.invariant u t')) ∧
    (∀ r, exec i s = .refused r → exec i s' = .refused r)

/-- 41_decoder R157: two frames that differ at most in the OL bit `F[7][0]` and the UL bit `F[9][3]` decode alike: the same
status, and a Reading equal in every field but FLAGS, its mantissa from the digit nibbles; FLAGS reports the two bits. -/
def Obligations.OverloadAndUnderrangeKeepTheValue : Prop :=
  ∀ f g s t, f ||| BitVec.twoPow 112 56 ||| BitVec.twoPow 112 75 = g ||| BitVec.twoPow 112 56 ||| BitVec.twoPow 112 75 →
    exec (.decode f) s = .next t →
    ∃ u, exec (.decode g) s = .next u ∧ u.status = t.status ∧ u.readingValid = t.readingValid ∧
      (t.readingValid = true → { u.reading with flags := t.reading.flags } = t.reading ∧
        u.reading.valMant.toInt = signedDigits g ∧ u.reading.flags.getLsbD 0 = g.getLsbD 56 ∧
        u.reading.flags.getLsbD 7 = g.getLsbD 75)

/-- A configuration that fails one of WF1 to WF6 is refused, with no step: every instruction but the reserved ones answers that
refusal, whatever the state and the operands, and no command that waits has a next state (41_decoder R155, 70 R232, 92 D37).
That a configuration with tables above 4 + NUM_CURRENT_TABLES fails WF5 (log 8), and that a reserved instruction keeps its own
refusal (log 14), are the model's choices. -/
def Obligations.InadmissibleConfigurationIsRefused : Prop :=
  ∀ s, s.config.admitted = false →
    (∀ i : Instr, i.isReserved = false → exec i s = .refused .badConfiguration) ∧
    (∀ x rest t, s.inputs = x :: rest → step s ≠ .next t)

/-! ### The bounded reader -/

/-- 60_exceptions R206: READ_EXHAUSTED is reported exactly at attempt 14·K of a read in which no frame was emitted, by IDLE or
PUSH, ends the read and records nothing else. -/
def Obligations.ExhaustionExactlyAtTheBudget : Prop :=
  ∀ i s t, exec i s = .next t →
    (t.status = 4 ↔ (i = .idle ∨ ∃ b, i = .push b) ∧ s.rdActive = true ∧ s.attempts + 1 = 14 * s.config.multiple.val ∧
      t.frameValid = false) ∧
    (t.status = 4 → t.errorInfo = some .readExhausted ∧ t.rdActive = false ∧ t.attempts = 0)

/-- The reader never influences the Framer or the Decoder: with other contents of RD_ACTIVE and ATTEMPTS a command gives the same
window, PREV, frame and Reading, and, but for the reader's own report READ_EXHAUSTED, the same STATUS and error term
(42_stream_reader R187, R185, 10_state R42). Nothing is said of what the spec leaves at any value: WMEM after RESET (R45), and
FRAME_OUT and READING where they are not valid (R25, R42). -/
def Obligations.ReaderNeverInfluencesTheFramer : Prop :=
  ∀ i s t active n, exec i s = .next t →
    ∃ u, exec i { s with rdActive := active, attempts := n } = .next u ∧
      (i ≠ .reset → u.wmem = t.wmem) ∧ u.whead = t.whead ∧ u.wcnt = t.wcnt ∧ window u = window t ∧ u.prev = t.prev ∧
      u.frameValid = t.frameValid ∧ (t.frameValid = true → u.frameOut = t.frameOut) ∧
      u.readingValid = t.readingValid ∧ (t.readingValid = true → u.reading = t.reading) ∧
      (t.status ≠ 4 → u.status ≠ 4 → u.status = t.status ∧ u.errorInfo = t.errorInfo)

/-- A silent line ends a read exactly when its budget is spent: with `n + 1` attempts left, `n` IDLE commands leave it active
with STATUS = OK and the next reports READ_EXHAUSTED; the Framer is untouched (42_stream_reader R185, R186, R188); under an
admitted configuration (70 R232). -/
def Obligations.SilenceExhaustsTheRead : Prop :=
  ∀ (n : Nat) (s : State) (rest : List Input), s.config.admitted = true → s.rdActive = true →
    s.attempts + (n + 1) = s.config.budget →
    s.inputs = List.replicate (n + 1) ⟨0x000, 0⟩ ++ rest →
    (∃ t : State, core.run n s = .next t ∧ t.rdActive = true ∧ (0 < n → t.status = 0)) ∧
    (∃ t : State, core.run (n + 1) s = .next t ∧ t.rdActive = false ∧ t.attempts = 0 ∧ t.status = 4 ∧ FramerSame s t ∧
      t.inputs = rest)

/-- A bounded read always ends within its budget: whatever IDLE and PUSH commands fill the attempts left, the read is over by
the last of them, under a configuration that maps every unit (70 R243, 42_stream_reader R185). -/
def Obligations.EveryReadEndsWithinItsBudget : Prop :=
  ∀ s : State, s.config.admitted = true → s.config.wf7 = true → s.rdActive = true → s.attempts < s.config.budget →
    s.inputs.length = s.config.budget - s.attempts → (∀ x ∈ s.inputs, (decodeCommand x).isAttempt = true) →
    ∃ (k : Nat) (t : State), k ≤ s.inputs.length ∧ core.run k s = .next t ∧ t.rdActive = false

/-! ### The whole machine -/

/-- Every step keeps the invariant: storage in range, window free of LF and ending in PREV, the read within its budget, the
output ports consistent (40_framer R110, 10_state R42, 60_exceptions R210). -/
def Obligations.EveryStepKeepsTheInvariant : Prop :=
  ∀ s t, CoreInv s → step s = .next t → CoreInv t

/-- No instruction writes the configuration ROMs, or the commands still waiting (10_state R31, 20_memory R64). -/
def Obligations.ConfigurationIsNeverWritten : Prop :=
  ∀ i s t, exec i s = .next t → t.config = s.config ∧ t.inputs = s.inputs

/-- 42_stream_reader R182: the output ports after each command. -/
def Obligations.OutputsOfEachCommand : Prop :=
  ∀ s t,
    (exec .idle s = .next t → t.frameValid = false ∧ (t.status = 0 ∨ t.status = 4) ∧ t.readingValid = false) ∧
    (∀ b, exec (.push b) s = .next t → t.frameValid = false →
      (t.status = 0 ∨ t.status = 4) ∧ t.readingValid = false) ∧
    (∀ b, exec (.push b) s = .next t → t.frameValid = true →
      (∃ d, exec (.decode t.frameOut) s = .next d ∧ t.status = d.status) ∧ (t.readingValid = true ↔ t.status = 0)) ∧
    (∀ f, exec (.decode f) s = .next t →
      t.frameValid = false ∧ t.status.toNat ≤ 3 ∧ (t.readingValid = true ↔ t.status = 0)) ∧
    (exec .reset s = .next t → t.frameValid = false ∧ t.status = 0 ∧ t.readingValid = false) ∧
    (exec .rdstart s = .next t → t.frameValid = false ∧ t.status = 0 ∧ t.readingValid = false)

/-- A frame is emitted only by a PUSH of LF after CR (10_state R25, 40_framer R103). -/
def Obligations.OnlyAPushedTerminatorEmits : Prop :=
  ∀ i s t, exec i s = .next t → t.frameValid = true → i = .push 0x0A ∧ s.prev = 0x0D

/-- Under a configuration that maps every unit no instruction faults (41_decoder R144, R155 WF7). -/
def Obligations.MappedUnitsNeverFault : Prop :=
  ∀ i s r, s.config.wf7 = true → exec i s ≠ .fault r

/-- Every command completes in one step: whatever the state and the operands, an instruction that is not reserved goes on,
under a configuration that passes WF1 to WF7 (70 R243). -/
def Obligations.EveryCommandCompletes : Prop :=
  ∀ i s, i.isReserved = false → s.config.admitted = true → s.config.wf7 = true → ∃ t, exec i s = .next t
end

