-- ==== Sys2Proof/Laws/Decode.lean ====
section
/-! SUPPORT. Laws/Decode.lean: the fields of a command word against the word made of them (30_encoding R80), and the two
decoding tables row by row. -/

namespace Sys2Proof

@[simp] theorem cmdOp_cmdWord (op : BitVec 3) (d : Byte) : cmdOp (cmdWord op d) = op := by
  apply BitVec.eq_of_getLsbD_eq
  intro i hi
  simp only [cmdOp, BitVec.getLsbD_extractLsb', hi, decide_true, Bool.true_and]
  change (op ++ d).getLsbD (8 + i) = _
  rw [BitVec.getLsbD_append]
  simp

@[simp] theorem cmdData_cmdWord (op : BitVec 3) (d : Byte) : cmdData (cmdWord op d) = d := by
  apply BitVec.eq_of_getLsbD_eq
  intro i hi
  simp only [cmdData, BitVec.getLsbD_extractLsb', hi, decide_true, Bool.true_and]
  change (op ++ d).getLsbD (0 + i) = _
  rw [BitVec.getLsbD_append]
  simp [hi]

/-- A command word is its two fields. -/
theorem cmdWord_fields (c : Cmd) : cmdWord (cmdOp c) (cmdData c) = c := by
  apply BitVec.eq_of_getLsbD_eq
  intro i hi
  change (cmdOp c ++ cmdData c).getLsbD i = _
  rw [BitVec.getLsbD_append]
  by_cases h : i < 8
  · simp [cmdData, h]
  · have h3 : i - 8 < 3 := by omega
    have h4 : 8 + (i - 8) = i := by omega
    simp [cmdOp, h, h3, h4]

/-- Decoding a word made of its fields. -/
@[simp] theorem decodeCommand_cmdWord (op : BitVec 3) (d : Byte) (f : Frame) :
    decodeCommand ⟨cmdWord op d, f⟩ = commandInstr op d f := by
  simp [decodeCommand]

@[simp] theorem commandInstr_0 (d : Byte) (f : Frame) : commandInstr 0 d f = .idle := rfl
@[simp] theorem commandInstr_1 (d : Byte) (f : Frame) : commandInstr 1 d f = .push d := rfl
@[simp] theorem commandInstr_2 (d : Byte) (f : Frame) : commandInstr 2 d f = .decode f := rfl
@[simp] theorem commandInstr_3 (d : Byte) (f : Frame) : commandInstr 3 d f = .reset := rfl
@[simp] theorem commandInstr_4 (d : Byte) (f : Frame) : commandInstr 4 d f = .rdstart := rfl
@[simp] theorem commandInstr_5 (d : Byte) (f : Frame) : commandInstr 5 d f = .reservedOp5 := rfl
@[simp] theorem commandInstr_6 (d : Byte) (f : Frame) : commandInstr 6 d f = .reservedOp6 := rfl
@[simp] theorem commandInstr_7 (d : Byte) (f : Frame) : commandInstr 7 d f = .reservedOp7 := rfl

/-- The encoder gives a measurement-type instruction its frame back. -/
@[simp] theorem encode_mtypeInstr (m : Nibble) (f : Frame) : encode (mtypeInstr m f) = .frame f := by
  obtain ⟨⟨m, hm⟩⟩ := m
  interval_cases m <;> rfl

end Sys2Proof
end

