-- ==== Sys2Proof/Laws/State.lean ====
section
/-! SUPPORT. Laws/State.lean: for every named update of the state, what each field is after it, so that no later proof unfolds
a record update; and which updates leave the window alone. -/

namespace Sys2Proof.Machine

/-! ### clearOutputs -/

@[simp] theorem clearOutputs_wmem (s : State) : (clearOutputs s).wmem = s.wmem := rfl
@[simp] theorem clearOutputs_whead (s : State) : (clearOutputs s).whead = s.whead := rfl
@[simp] theorem clearOutputs_wcnt (s : State) : (clearOutputs s).wcnt = s.wcnt := rfl
@[simp] theorem clearOutputs_prev (s : State) : (clearOutputs s).prev = s.prev := rfl
@[simp] theorem clearOutputs_rdActive (s : State) : (clearOutputs s).rdActive = s.rdActive := rfl
@[simp] theorem clearOutputs_attempts (s : State) : (clearOutputs s).attempts = s.attempts := rfl
@[simp] theorem clearOutputs_frameValid (s : State) : (clearOutputs s).frameValid = false := rfl
@[simp] theorem clearOutputs_frameOut (s : State) : (clearOutputs s).frameOut = Config.freeFrame s.free := rfl
@[simp] theorem clearOutputs_status (s : State) : (clearOutputs s).status = statusOk := rfl
@[simp] theorem clearOutputs_readingValid (s : State) : (clearOutputs s).readingValid = false := rfl
@[simp] theorem clearOutputs_reading (s : State) : (clearOutputs s).reading = Config.freeReading s.free := rfl
@[simp] theorem clearOutputs_config (s : State) : (clearOutputs s).config = s.config := rfl
@[simp] theorem clearOutputs_errorInfo (s : State) : (clearOutputs s).errorInfo = none := rfl
@[simp] theorem clearOutputs_inputs (s : State) : (clearOutputs s).inputs = s.inputs := rfl
@[simp] theorem clearOutputs_free (s : State) : (clearOutputs s).free = s.free + 1 := rfl

/-! ### raise -/

@[simp] theorem raise_wmem (e : ErrorInfo) (s : State) : (raise e s).wmem = s.wmem := rfl
@[simp] theorem raise_whead (e : ErrorInfo) (s : State) : (raise e s).whead = s.whead := rfl
@[simp] theorem raise_wcnt (e : ErrorInfo) (s : State) : (raise e s).wcnt = s.wcnt := rfl
@[simp] theorem raise_prev (e : ErrorInfo) (s : State) : (raise e s).prev = s.prev := rfl
@[simp] theorem raise_rdActive (e : ErrorInfo) (s : State) : (raise e s).rdActive = s.rdActive := rfl
@[simp] theorem raise_attempts (e : ErrorInfo) (s : State) : (raise e s).attempts = s.attempts := rfl
@[simp] theorem raise_frameValid (e : ErrorInfo) (s : State) : (raise e s).frameValid = s.frameValid := rfl
@[simp] theorem raise_frameOut (e : ErrorInfo) (s : State) : (raise e s).frameOut = s.frameOut := rfl
@[simp] theorem raise_status (e : ErrorInfo) (s : State) : (raise e s).status = e.code := rfl
@[simp] theorem raise_readingValid (e : ErrorInfo) (s : State) : (raise e s).readingValid = false := rfl
@[simp] theorem raise_reading (e : ErrorInfo) (s : State) : (raise e s).reading = s.reading := rfl
@[simp] theorem raise_config (e : ErrorInfo) (s : State) : (raise e s).config = s.config := rfl
@[simp] theorem raise_errorInfo (e : ErrorInfo) (s : State) : (raise e s).errorInfo = some e := rfl
@[simp] theorem raise_inputs (e : ErrorInfo) (s : State) : (raise e s).inputs = s.inputs := rfl
@[simp] theorem raise_free (e : ErrorInfo) (s : State) : (raise e s).free = s.free := rfl

/-! ### showReading -/

@[simp] theorem showReading_wmem (r : Reading) (s : State) : (showReading r s).wmem = s.wmem := rfl
@[simp] theorem showReading_whead (r : Reading) (s : State) : (showReading r s).whead = s.whead := rfl
@[simp] theorem showReading_wcnt (r : Reading) (s : State) : (showReading r s).wcnt = s.wcnt := rfl
@[simp] theorem showReading_prev (r : Reading) (s : State) : (showReading r s).prev = s.prev := rfl
@[simp] theorem showReading_rdActive (r : Reading) (s : State) : (showReading r s).rdActive = s.rdActive := rfl
@[simp] theorem showReading_attempts (r : Reading) (s : State) : (showReading r s).attempts = s.attempts := rfl
@[simp] theorem showReading_frameValid (r : Reading) (s : State) : (showReading r s).frameValid = s.frameValid := rfl
@[simp] theorem showReading_frameOut (r : Reading) (s : State) : (showReading r s).frameOut = s.frameOut := rfl
@[simp] theorem showReading_status (r : Reading) (s : State) : (showReading r s).status = statusOk := rfl
@[simp] theorem showReading_readingValid (r : Reading) (s : State) : (showReading r s).readingValid = true := rfl
@[simp] theorem showReading_reading (r : Reading) (s : State) : (showReading r s).reading = r := rfl
@[simp] theorem showReading_config (r : Reading) (s : State) : (showReading r s).config = s.config := rfl
@[simp] theorem showReading_errorInfo (r : Reading) (s : State) : (showReading r s).errorInfo = none := rfl
@[simp] theorem showReading_inputs (r : Reading) (s : State) : (showReading r s).inputs = s.inputs := rfl
@[simp] theorem showReading_free (r : Reading) (s : State) : (showReading r s).free = s.free := rfl

/-! ### emitFrame -/

@[simp] theorem emitFrame_wmem (f : Frame) (s : State) : (emitFrame f s).wmem = s.wmem := rfl
@[simp] theorem emitFrame_whead (f : Frame) (s : State) : (emitFrame f s).whead = s.whead := rfl
@[simp] theorem emitFrame_wcnt (f : Frame) (s : State) : (emitFrame f s).wcnt = s.wcnt := rfl
@[simp] theorem emitFrame_prev (f : Frame) (s : State) : (emitFrame f s).prev = s.prev := rfl
@[simp] theorem emitFrame_rdActive (f : Frame) (s : State) : (emitFrame f s).rdActive = s.rdActive := rfl
@[simp] theorem emitFrame_attempts (f : Frame) (s : State) : (emitFrame f s).attempts = s.attempts := rfl
@[simp] theorem emitFrame_frameValid (f : Frame) (s : State) : (emitFrame f s).frameValid = true := rfl
@[simp] theorem emitFrame_frameOut (f : Frame) (s : State) : (emitFrame f s).frameOut = f := rfl
@[simp] theorem emitFrame_status (f : Frame) (s : State) : (emitFrame f s).status = s.status := rfl
@[simp] theorem emitFrame_readingValid (f : Frame) (s : State) : (emitFrame f s).readingValid = s.readingValid := rfl
@[simp] theorem emitFrame_reading (f : Frame) (s : State) : (emitFrame f s).reading = s.reading := rfl
@[simp] theorem emitFrame_config (f : Frame) (s : State) : (emitFrame f s).config = s.config := rfl
@[simp] theorem emitFrame_errorInfo (f : Frame) (s : State) : (emitFrame f s).errorInfo = s.errorInfo := rfl
@[simp] theorem emitFrame_inputs (f : Frame) (s : State) : (emitFrame f s).inputs = s.inputs := rfl
@[simp] theorem emitFrame_free (f : Frame) (s : State) : (emitFrame f s).free = s.free := rfl

/-! ### winClear -/

@[simp] theorem winClear_wmem (s : State) : (winClear s).wmem = s.wmem := rfl
@[simp] theorem winClear_whead (s : State) : (winClear s).whead = s.whead := rfl
@[simp] theorem winClear_wcnt (s : State) : (winClear s).wcnt = 0 := rfl
@[simp] theorem winClear_prev (s : State) : (winClear s).prev = s.prev := rfl
@[simp] theorem winClear_rdActive (s : State) : (winClear s).rdActive = s.rdActive := rfl
@[simp] theorem winClear_attempts (s : State) : (winClear s).attempts = s.attempts := rfl
@[simp] theorem winClear_frameValid (s : State) : (winClear s).frameValid = s.frameValid := rfl
@[simp] theorem winClear_frameOut (s : State) : (winClear s).frameOut = s.frameOut := rfl
@[simp] theorem winClear_status (s : State) : (winClear s).status = s.status := rfl
@[simp] theorem winClear_readingValid (s : State) : (winClear s).readingValid = s.readingValid := rfl
@[simp] theorem winClear_reading (s : State) : (winClear s).reading = s.reading := rfl
@[simp] theorem winClear_config (s : State) : (winClear s).config = s.config := rfl
@[simp] theorem winClear_errorInfo (s : State) : (winClear s).errorInfo = s.errorInfo := rfl
@[simp] theorem winClear_inputs (s : State) : (winClear s).inputs = s.inputs := rfl
@[simp] theorem winClear_free (s : State) : (winClear s).free = s.free := rfl

/-! ### setPrev -/

@[simp] theorem setPrev_wmem (b : Byte) (s : State) : (setPrev b s).wmem = s.wmem := rfl
@[simp] theorem setPrev_whead (b : Byte) (s : State) : (setPrev b s).whead = s.whead := rfl
@[simp] theorem setPrev_wcnt (b : Byte) (s : State) : (setPrev b s).wcnt = s.wcnt := rfl
@[simp] theorem setPrev_prev (b : Byte) (s : State) : (setPrev b s).prev = b := rfl
@[simp] theorem setPrev_rdActive (b : Byte) (s : State) : (setPrev b s).rdActive = s.rdActive := rfl
@[simp] theorem setPrev_attempts (b : Byte) (s : State) : (setPrev b s).attempts = s.attempts := rfl
@[simp] theorem setPrev_frameValid (b : Byte) (s : State) : (setPrev b s).frameValid = s.frameValid := rfl
@[simp] theorem setPrev_frameOut (b : Byte) (s : State) : (setPrev b s).frameOut = s.frameOut := rfl
@[simp] theorem setPrev_status (b : Byte) (s : State) : (setPrev b s).status = s.status := rfl
@[simp] theorem setPrev_readingValid (b : Byte) (s : State) : (setPrev b s).readingValid = s.readingValid := rfl
@[simp] theorem setPrev_reading (b : Byte) (s : State) : (setPrev b s).reading = s.reading := rfl
@[simp] theorem setPrev_config (b : Byte) (s : State) : (setPrev b s).config = s.config := rfl
@[simp] theorem setPrev_errorInfo (b : Byte) (s : State) : (setPrev b s).errorInfo = s.errorInfo := rfl
@[simp] theorem setPrev_inputs (b : Byte) (s : State) : (setPrev b s).inputs = s.inputs := rfl
@[simp] theorem setPrev_free (b : Byte) (s : State) : (setPrev b s).free = s.free := rfl

/-! ### readerStop -/

@[simp] theorem readerStop_wmem (s : State) : (readerStop s).wmem = s.wmem := rfl
@[simp] theorem readerStop_whead (s : State) : (readerStop s).whead = s.whead := rfl
@[simp] theorem readerStop_wcnt (s : State) : (readerStop s).wcnt = s.wcnt := rfl
@[simp] theorem readerStop_prev (s : State) : (readerStop s).prev = s.prev := rfl
@[simp] theorem readerStop_rdActive (s : State) : (readerStop s).rdActive = false := rfl
@[simp] theorem readerStop_attempts (s : State) : (readerStop s).attempts = 0 := rfl
@[simp] theorem readerStop_frameValid (s : State) : (readerStop s).frameValid = s.frameValid := rfl
@[simp] theorem readerStop_frameOut (s : State) : (readerStop s).frameOut = s.frameOut := rfl
@[simp] theorem readerStop_status (s : State) : (readerStop s).status = s.status := rfl
@[simp] theorem readerStop_readingValid (s : State) : (readerStop s).readingValid = s.readingValid := rfl
@[simp] theorem readerStop_reading (s : State) : (readerStop s).reading = s.reading := rfl
@[simp] theorem readerStop_config (s : State) : (readerStop s).config = s.config := rfl
@[simp] theorem readerStop_errorInfo (s : State) : (readerStop s).errorInfo = s.errorInfo := rfl
@[simp] theorem readerStop_inputs (s : State) : (readerStop s).inputs = s.inputs := rfl
@[simp] theorem readerStop_free (s : State) : (readerStop s).free = s.free := rfl

/-! ### readerStart -/

@[simp] theorem readerStart_wmem (s : State) : (readerStart s).wmem = s.wmem := rfl
@[simp] theorem readerStart_whead (s : State) : (readerStart s).whead = s.whead := rfl
@[simp] theorem readerStart_wcnt (s : State) : (readerStart s).wcnt = s.wcnt := rfl
@[simp] theorem readerStart_prev (s : State) : (readerStart s).prev = s.prev := rfl
@[simp] theorem readerStart_rdActive (s : State) : (readerStart s).rdActive = true := rfl
@[simp] theorem readerStart_attempts (s : State) : (readerStart s).attempts = 0 := rfl
@[simp] theorem readerStart_frameValid (s : State) : (readerStart s).frameValid = s.frameValid := rfl
@[simp] theorem readerStart_frameOut (s : State) : (readerStart s).frameOut = s.frameOut := rfl
@[simp] theorem readerStart_status (s : State) : (readerStart s).status = s.status := rfl
@[simp] theorem readerStart_readingValid (s : State) : (readerStart s).readingValid = s.readingValid := rfl
@[simp] theorem readerStart_reading (s : State) : (readerStart s).reading = s.reading := rfl
@[simp] theorem readerStart_config (s : State) : (readerStart s).config = s.config := rfl
@[simp] theorem readerStart_errorInfo (s : State) : (readerStart s).errorInfo = s.errorInfo := rfl
@[simp] theorem readerStart_inputs (s : State) : (readerStart s).inputs = s.inputs := rfl
@[simp] theorem readerStart_free (s : State) : (readerStart s).free = s.free := rfl

/-! ### countAttempt -/

@[simp] theorem countAttempt_wmem (n : Nat) (s : State) : (countAttempt n s).wmem = s.wmem := rfl
@[simp] theorem countAttempt_whead (n : Nat) (s : State) : (countAttempt n s).whead = s.whead := rfl
@[simp] theorem countAttempt_wcnt (n : Nat) (s : State) : (countAttempt n s).wcnt = s.wcnt := rfl
@[simp] theorem countAttempt_prev (n : Nat) (s : State) : (countAttempt n s).prev = s.prev := rfl
@[simp] theorem countAttempt_rdActive (n : Nat) (s : State) : (countAttempt n s).rdActive = s.rdActive := rfl
@[simp] theorem countAttempt_attempts (n : Nat) (s : State) : (countAttempt n s).attempts = n % 2 ^ s.config.attemptsWidth := rfl
@[simp] theorem countAttempt_frameValid (n : Nat) (s : State) : (countAttempt n s).frameValid = s.frameValid := rfl
@[simp] theorem countAttempt_frameOut (n : Nat) (s : State) : (countAttempt n s).frameOut = s.frameOut := rfl
@[simp] theorem countAttempt_status (n : Nat) (s : State) : (countAttempt n s).status = s.status := rfl
@[simp] theorem countAttempt_readingValid (n : Nat) (s : State) : (countAttempt n s).readingValid = s.readingValid := rfl
@[simp] theorem countAttempt_reading (n : Nat) (s : State) : (countAttempt n s).reading = s.reading := rfl
@[simp] theorem countAttempt_config (n : Nat) (s : State) : (countAttempt n s).config = s.config := rfl
@[simp] theorem countAttempt_errorInfo (n : Nat) (s : State) : (countAttempt n s).errorInfo = s.errorInfo := rfl
@[simp] theorem countAttempt_inputs (n : Nat) (s : State) : (countAttempt n s).inputs = s.inputs := rfl
@[simp] theorem countAttempt_free (n : Nat) (s : State) : (countAttempt n s).free = s.free := rfl

/-! ### resetRegisters -/

@[simp] theorem resetRegisters_wmem (s : State) : (resetRegisters s).wmem = Config.freeWmem s.free := rfl
@[simp] theorem resetRegisters_whead (s : State) : (resetRegisters s).whead = 0 := rfl
@[simp] theorem resetRegisters_wcnt (s : State) : (resetRegisters s).wcnt = 0 := rfl
@[simp] theorem resetRegisters_prev (s : State) : (resetRegisters s).prev = 0x00 := rfl
@[simp] theorem resetRegisters_rdActive (s : State) : (resetRegisters s).rdActive = false := rfl
@[simp] theorem resetRegisters_attempts (s : State) : (resetRegisters s).attempts = 0 := rfl
@[simp] theorem resetRegisters_frameValid (s : State) : (resetRegisters s).frameValid = s.frameValid := rfl
@[simp] theorem resetRegisters_frameOut (s : State) : (resetRegisters s).frameOut = s.frameOut := rfl
@[simp] theorem resetRegisters_status (s : State) : (resetRegisters s).status = s.status := rfl
@[simp] theorem resetRegisters_readingValid (s : State) : (resetRegisters s).readingValid = s.readingValid := rfl
@[simp] theorem resetRegisters_reading (s : State) : (resetRegisters s).reading = s.reading := rfl
@[simp] theorem resetRegisters_config (s : State) : (resetRegisters s).config = s.config := rfl
@[simp] theorem resetRegisters_errorInfo (s : State) : (resetRegisters s).errorInfo = s.errorInfo := rfl
@[simp] theorem resetRegisters_inputs (s : State) : (resetRegisters s).inputs = s.inputs := rfl
@[simp] theorem resetRegisters_free (s : State) : (resetRegisters s).free = s.free := rfl

/-! ### setInputs -/

@[simp] theorem setInputs_wmem (rest : List Input) (s : State) : (setInputs rest s).wmem = s.wmem := rfl
@[simp] theorem setInputs_whead (rest : List Input) (s : State) : (setInputs rest s).whead = s.whead := rfl
@[simp] theorem setInputs_wcnt (rest : List Input) (s : State) : (setInputs rest s).wcnt = s.wcnt := rfl
@[simp] theorem setInputs_prev (rest : List Input) (s : State) : (setInputs rest s).prev = s.prev := rfl
@[simp] theorem setInputs_rdActive (rest : List Input) (s : State) : (setInputs rest s).rdActive = s.rdActive := rfl
@[simp] theorem setInputs_attempts (rest : List Input) (s : State) : (setInputs rest s).attempts = s.attempts := rfl
@[simp] theorem setInputs_frameValid (rest : List Input) (s : State) : (setInputs rest s).frameValid = s.frameValid := rfl
@[simp] theorem setInputs_frameOut (rest : List Input) (s : State) : (setInputs rest s).frameOut = s.frameOut := rfl
@[simp] theorem setInputs_status (rest : List Input) (s : State) : (setInputs rest s).status = s.status := rfl
@[simp] theorem setInputs_readingValid (rest : List Input) (s : State) : (setInputs rest s).readingValid = s.readingValid := rfl
@[simp] theorem setInputs_reading (rest : List Input) (s : State) : (setInputs rest s).reading = s.reading := rfl
@[simp] theorem setInputs_config (rest : List Input) (s : State) : (setInputs rest s).config = s.config := rfl
@[simp] theorem setInputs_errorInfo (rest : List Input) (s : State) : (setInputs rest s).errorInfo = s.errorInfo := rfl
@[simp] theorem setInputs_inputs (rest : List Input) (s : State) : (setInputs rest s).inputs = rest := rfl
@[simp] theorem setInputs_free (rest : List Input) (s : State) : (setInputs rest s).free = s.free := rfl

/-! ### The window -/

@[simp] theorem window_clearOutputs (s : State) : window (clearOutputs s) = window s := rfl
@[simp] theorem window_raise (e : ErrorInfo) (s : State) : window (raise e s) = window s := rfl
@[simp] theorem window_showReading (r : Reading) (s : State) : window (showReading r s) = window s := rfl
@[simp] theorem window_emitFrame (f : Frame) (s : State) : window (emitFrame f s) = window s := rfl
@[simp] theorem window_setPrev (b : Byte) (s : State) : window (setPrev b s) = window s := rfl
@[simp] theorem window_readerStop (s : State) : window (readerStop s) = window s := rfl
@[simp] theorem window_readerStart (s : State) : window (readerStart s) = window s := rfl
@[simp] theorem window_countAttempt (n : Nat) (s : State) : window (countAttempt n s) = window s := rfl
@[simp] theorem window_setInputs (rest : List Input) (s : State) : window (setInputs rest s) = window s := rfl

@[simp] theorem window_winClear (s : State) : window (winClear s) = [] := rfl

@[simp] theorem window_resetRegisters (s : State) : window (resetRegisters s) = [] := rfl

end Sys2Proof.Machine
end

