-- ==== Sys2Proof/Laws/Decoder.lean ====
section
/-! SUPPORT. Laws/Decoder.lean: everything a decode can answer (41_decoder R131, 60_exceptions R209) and everything one step of
the Decoder can do to the state. -/

namespace Sys2Proof.Machine

/-! ### Admission -/

/-- Under an admitted configuration the command has its outcome. -/
@[simp] theorem ifAdmitted_admitted (s : State) (o : Host.Outcome State Fault Refusal) (h : s.config.admitted = true) :
    ifAdmitted s o = o := by
  simp [ifAdmitted, h]

/-- Under any other it has no step (92 D37). -/
@[simp] theorem ifAdmitted_refused (s : State) (o : Host.Outcome State Fault Refusal) (h : s.config.admitted = false) :
    ifAdmitted s o = .refused .badConfiguration := by
  simp [ifAdmitted, h]

/-- A command that goes on does so under an admitted configuration, as its outcome says. -/
theorem ifAdmitted_next (s : State) (o : Host.Outcome State Fault Refusal) (t : State) (h : ifAdmitted s o = .next t) :
    s.config.admitted = true ∧ o = .next t := by
  cases ha : s.config.admitted with
  | true => exact ⟨rfl, by simpa [ha] using h⟩
  | false => simp [ha] at h

/-! ### Decodes -/

/-- A decode answers a Reading exactly when all five steps succeed. -/
theorem decodeAs_reading_iff (c : Config) (m : Nibble) (f : Frame) (r : Reading) :
    decodeAs c m f = .reading r ↔
      ∃ me t re cu uexp, c.mtRead m = some me ∧ selectTable f me = some t ∧
        c.rtRead t (rangeCode f) = some re ∧ normMap re.unit = some (cu, uexp) ∧
        r = mkReading m f me t re cu uexp := by
  unfold decodeAs
  constructor
  · intro h
    split at h
    · cases h
    · rename_i me hme
      split at h
      · cases h
      · rename_i t ht
        split at h
        · cases h
        · rename_i re hre
          split at h
          · cases h
          · rename_i cu uexp hn
            cases h
            exact ⟨me, t, re, cu, uexp, hme, ht, hre, hn, rfl⟩
  · rintro ⟨me, t, re, cu, uexp, hme, ht, hre, hn, rfl⟩
    simp [hme, ht, hre, hn]

/-- A decode answers the invariant fault exactly when only step 5 fails. -/
theorem decodeAs_invariant_iff (c : Config) (m : Nibble) (f : Frame) (u : Nibble) :
    decodeAs c m f = .invariant u ↔
      ∃ me t re, c.mtRead m = some me ∧ selectTable f me = some t ∧
        c.rtRead t (rangeCode f) = some re ∧ normMap re.unit = none ∧ u = re.unit := by
  unfold decodeAs
  constructor
  · intro h
    split at h
    · cases h
    · rename_i me hme
      split at h
      · cases h
      · rename_i t ht
        split at h
        · cases h
        · rename_i re hre
          split at h
          · rename_i hn
            cases h
            exact ⟨me, t, re, hme, ht, hre, hn, rfl⟩
          · cases h
  · rintro ⟨me, t, re, hme, ht, hre, hn, rfl⟩
    simp [hme, ht, hre, hn]

theorem decodeAs_absentMode (c : Config) (m : Nibble) (f : Frame) (h : c.mtRead m = none) :
    decodeAs c m f = .error (.unknownMode m) := by
  simp [decodeAs, h]

theorem decodeAs_noTable (c : Config) (m : Nibble) (f : Frame) (me : MtEntry) (h : c.mtRead m = some me)
    (ht : selectTable f me = none) : decodeAs c m f = .error (.noRangeTable m) := by
  simp [decodeAs, h, ht]

theorem decodeAs_absentRange (c : Config) (m : Nibble) (f : Frame) (me : MtEntry) (t : Nibble)
    (h : c.mtRead m = some me) (ht : selectTable f me = some t) (hr : c.rtRead t (rangeCode f) = none) :
    decodeAs c m f = .error (.unknownRange t (rangeCode f)) := by
  simp [decodeAs, h, ht, hr]

/-- The errors a decode reports are its own three: codes 1, 2 and 3 (60_exceptions R201). -/
theorem decodeAs_error_code (c : Config) (m : Nibble) (f : Frame) (e : ErrorInfo) (h : decodeAs c m f = .error e) :
    e = .unknownMode m ∨ e = .noRangeTable m ∨ ∃ t, e = .unknownRange t (rangeCode f) := by
  unfold decodeAs at h
  split at h
  · cases h
    exact .inl rfl
  · split at h
    · cases h
      exact .inr (.inl rfl)
    · split at h
      · cases h
        exact .inr (.inr ⟨_, rfl⟩)
      · split at h <;> cases h

/-- What driving the ports never touches: Framer, reader, frame output, configuration. -/
theorem present_frame (r : DecodeResult) (s : State) :
    (present r s).wmem = s.wmem ∧ (present r s).whead = s.whead ∧ (present r s).wcnt = s.wcnt ∧
    window (present r s) = window s ∧ (present r s).prev = s.prev ∧ (present r s).rdActive = s.rdActive ∧
    (present r s).attempts = s.attempts ∧ (present r s).frameValid = s.frameValid ∧
    (present r s).frameOut = s.frameOut ∧ (present r s).config = s.config ∧ (present r s).inputs = s.inputs := by
  cases r <;> simp [present]

@[simp] theorem conclude_reading (r : Reading) (s : State) : conclude (.reading r) s = .next s := rfl
@[simp] theorem conclude_error (e : ErrorInfo) (s : State) : conclude (.error e) s = .next s := rfl
@[simp] theorem conclude_invariant (u : Nibble) (s : State) :
    conclude (.invariant u) s = .fault (.invariant u s) := rfl

/-- A step that ran a decode goes on to `t` only as the state it leaves, and only without the invariant fault. -/
theorem conclude_next (r : DecodeResult) (s t : State) (h : conclude r s = .next t) :
    t = s ∧ ∀ u, r ≠ .invariant u := by
  cases r with
  | reading rd => exact ⟨by simpa using h.symm, by simp⟩
  | error e => exact ⟨by simpa using h.symm, by simp⟩
  | invariant u => simp at h

/-- One step of the Decoder that goes on: the configuration is admitted and the ports show the result. -/
theorem decodeStep_next (m : Nibble) (f : Frame) (s t : State) (h : decodeStep m f s = .next t) :
    s.config.admitted = true ∧ t = present (decodeAs s.config m f) (clearOutputs s) ∧
      ∀ u, decodeAs s.config m f ≠ .invariant u := by
  obtain ⟨ha, hc⟩ := ifAdmitted_next _ _ _ h
  obtain ⟨e, hu⟩ := conclude_next _ _ _ hc
  exact ⟨ha, e, hu⟩

/-- One step of the Decoder under an admitted configuration. -/
theorem decodeStep_admitted (m : Nibble) (f : Frame) (s : State) (h : s.config.admitted = true) :
    decodeStep m f s = conclude (decodeAs s.config m f) (present (decodeAs s.config m f) (clearOutputs s)) := by
  simp [decodeStep, h]

/-- The four absent codes of an admitted configuration (41_decoder R155 WF1). -/
theorem mtRead_absent (c : Config) (h : c.admitted = true) :
    c.mtRead 7 = none ∧ c.mtRead 8 = none ∧ c.mtRead 10 = none ∧ c.mtRead 12 = none := by
  simp only [Config.admitted, Config.wf1, Bool.and_eq_true, List.all_cons, List.all_nil, Option.isNone_iff_eq_none] at h
  obtain ⟨⟨⟨⟨⟨⟨-, h7, h8, h10, h12, -⟩, -⟩, -⟩, -⟩, -⟩, -⟩ := h
  exact ⟨h7, h8, h10, h12⟩

end Sys2Proof.Machine
end

