-- ==== Sys2Proof/Laws/Window.lean ====
section
/-! SUPPORT. Laws/Window.lean: the storage realisation of the window against the sequence it stands for (10_state R22,
20_memory R51), and a frame against its fourteen bytes (30_encoding R71). -/

namespace Sys2Proof.Machine

@[simp] theorem window_length (s : State) : (window s).length = s.wcnt.toNat := by
  simp [window]

theorem window_getElem (s : State) (i : Nat) (h : i < (window s).length) :
    (window s)[i] = s.wmem[(s.whead.toNat + i) % 14]'(Nat.mod_lt _ (by decide)) := by
  simp [window]

/-- What `WinAppend` leaves alone: everything but the storage. -/
theorem winAppend_frame (b : Byte) (s : State) :
    ∃ m h c, winAppend b s = { s with wmem := m, whead := h, wcnt := c } := by
  unfold winAppend
  split
  · exact ⟨_, _, s.wcnt, rfl⟩
  · exact ⟨_, s.whead, _, rfl⟩

@[simp] theorem winAppend_prev (b : Byte) (s : State) : (winAppend b s).prev = s.prev := by
  obtain ⟨m, h, c, e⟩ := winAppend_frame b s
  rw [e]

@[simp] theorem winAppend_rdActive (b : Byte) (s : State) : (winAppend b s).rdActive = s.rdActive := by
  obtain ⟨m, h, c, e⟩ := winAppend_frame b s
  rw [e]

@[simp] theorem winAppend_attempts (b : Byte) (s : State) : (winAppend b s).attempts = s.attempts := by
  obtain ⟨m, h, c, e⟩ := winAppend_frame b s
  rw [e]

@[simp] theorem winAppend_frameValid (b : Byte) (s : State) : (winAppend b s).frameValid = s.frameValid := by
  obtain ⟨m, h, c, e⟩ := winAppend_frame b s
  rw [e]

@[simp] theorem winAppend_frameOut (b : Byte) (s : State) : (winAppend b s).frameOut = s.frameOut := by
  obtain ⟨m, h, c, e⟩ := winAppend_frame b s
  rw [e]

@[simp] theorem winAppend_status (b : Byte) (s : State) : (winAppend b s).status = s.status := by
  obtain ⟨m, h, c, e⟩ := winAppend_frame b s
  rw [e]

@[simp] theorem winAppend_readingValid (b : Byte) (s : State) : (winAppend b s).readingValid = s.readingValid := by
  obtain ⟨m, h, c, e⟩ := winAppend_frame b s
  rw [e]

@[simp] theorem winAppend_reading (b : Byte) (s : State) : (winAppend b s).reading = s.reading := by
  obtain ⟨m, h, c, e⟩ := winAppend_frame b s
  rw [e]

@[simp] theorem winAppend_config (b : Byte) (s : State) : (winAppend b s).config = s.config := by
  obtain ⟨m, h, c, e⟩ := winAppend_frame b s
  rw [e]

@[simp] theorem winAppend_errorInfo (b : Byte) (s : State) : (winAppend b s).errorInfo = s.errorInfo := by
  obtain ⟨m, h, c, e⟩ := winAppend_frame b s
  rw [e]

@[simp] theorem winAppend_inputs (b : Byte) (s : State) : (winAppend b s).inputs = s.inputs := by
  obtain ⟨m, h, c, e⟩ := winAppend_frame b s
  rw [e]

@[simp] theorem winAppend_free (b : Byte) (s : State) : (winAppend b s).free = s.free := by
  obtain ⟨m, h, c, e⟩ := winAppend_frame b s
  rw [e]

/-- `WCNT + 1` below the register's top. -/
theorem toNat_count_succ (c : BitVec 4) : (c + 1).toNat = (c.toNat + 1) % 16 := by
  simp [BitVec.toNat_add]

/-- `WinAppend` keeps the storage registers in range. -/
theorem winAppend_storageOk (b : Byte) (s : State) (h : StorageOk s) : StorageOk (winAppend b s) := by
  obtain ⟨hh, hc⟩ := h
  unfold winAppend winCap
  split
  · refine ⟨?_, hc⟩
    simp only [BitVec.toNat_ofNat]
    omega
  · rename_i hne
    refine ⟨hh, ?_⟩
    simp only [toNat_count_succ]
    omega

/-- `WinAppend` in the storage is `WinAppend` on the sequence (20_memory R51). -/
theorem window_winAppend (b : Byte) (s : State) (h : StorageOk s) :
    window (winAppend b s) = windowAppend (window s) b := by
  obtain ⟨hh, hc⟩ := h
  unfold windowAppend
  rw [window_length]
  unfold winAppend winCap
  split
  · rename_i hfull
    apply List.ext_getElem
    · simp [hfull]
    intro i h1 h2
    simp only [window_length] at h1
    rw [window_getElem]
    simp only [BitVec.toNat_ofNat]
    rw [Vector.getElem_setIfInBounds]
    rw [List.getElem_append]
    simp only [List.length_drop, window_length, hfull]
    split
    · rename_i heq
      have : ¬ i < 14 - 1 := by omega
      simp [this]
    · rename_i hne
      have hi : i < 14 - 1 := by omega
      simp only [hi, ↓reduceDIte, List.getElem_drop]
      rw [window_getElem]
      congr 1
      omega
  · rename_i hne
    apply List.ext_getElem
    · simp only [window_length, List.length_append, List.length_cons, List.length_nil, toNat_count_succ]
      omega
    intro i h1 h2
    simp only [window_length, toNat_count_succ] at h1
    rw [window_getElem]
    simp only
    rw [Vector.getElem_setIfInBounds]
    rw [List.getElem_append]
    simp only [window_length]
    split
    · rename_i heq
      have : ¬ i < s.wcnt.toNat := by omega
      simp [this]
    · rename_i hne'
      have hi : i < s.wcnt.toNat := by
        have : i ≠ s.wcnt.toNat := fun e => hne' (by rw [e])
        omega
      simp only [hi, ↓reduceDIte]
      rw [window_getElem]

/-- From thirteen bytes on, the appended window is the last thirteen and the new byte (20_memory R51). -/
theorem windowAppend_lastN (w : List Byte) (b : Byte) (h13 : 13 ≤ w.length) (h14 : w.length ≤ 14) :
    windowAppend w b = lastN 13 w ++ [b] := by
  unfold windowAppend lastN
  split
  · congr 2
    omega
  · have h0 : w.length - 13 = 0 := by omega
    simp [h0]

/-! ### Frames -/

@[simp] theorem frameBytes_length (f : Frame) : (frameBytes f).length = 14 := by
  simp [frameBytes]

/-- Byte `i` of packed bytes is their element `i` (30_encoding R71). -/
theorem frameByte_packFrame (bytes : List Byte) (i : Nat) (h : i < 14) :
    frameByte (packFrame bytes) i = bytes.getD i 0 := by
  induction bytes generalizing i with
  | nil =>
    simp [packFrame, frameByte]
  | cons b rest ih =>
    cases i with
    | zero =>
      apply BitVec.eq_of_getLsbD_eq
      intro j hj
      simp [packFrame, frameByte, hj]
      omega
    | succ n =>
      have hn := ih n (by omega)
      apply BitVec.eq_of_getLsbD_eq
      intro j hj
      have hb := congrArg (fun v => v.getLsbD j) hn
      simp only [frameByte, BitVec.getLsbD_extractLsb'] at hb ⊢
      simp only [hj, decide_true, Bool.true_and] at hb ⊢
      simp only [packFrame, BitVec.getLsbD_or, BitVec.getLsbD_shiftLeft, BitVec.getLsbD_setWidth, List.getD_cons_succ]
      rw [← hb]
      have e1 : 8 * (n + 1) + j < 112 := by omega
      have e2 : ¬ 8 * (n + 1) + j < 8 := by omega
      have e3 : 8 * (n + 1) + j - 8 = 8 * n + j := by omega
      simp [e1, e2, e3, BitVec.getLsbD_of_ge b (8 * (n + 1) + j) (by omega)]

/-- Fourteen bytes packed and taken apart again (20_memory R52, 30_encoding R71). -/
theorem frameBytes_packFrame (bytes : List Byte) (h : bytes.length = 14) :
    frameBytes (packFrame bytes) = bytes := by
  apply List.ext_getElem
  · simp [h]
  intro i h1 h2
  simp only [frameBytes, List.getElem_map, List.getElem_range]
  rw [frameByte_packFrame _ _ (by omega)]
  simp [List.getD, List.getElem?_eq_getElem h2]

/-- A frame is its bytes: equal bytes, equal frames. -/
theorem frame_ext (f g : Frame) (h : frameBytes f = frameBytes g) : f = g := by
  apply BitVec.eq_of_getLsbD_eq
  intro j hj
  have hi : j / 8 < 14 := by omega
  have hbyte : frameByte f (j / 8) = frameByte g (j / 8) := by
    have := congrArg (fun l => l[j / 8]?) h
    simpa [frameBytes, hi] using this
  have hbit := congrArg (fun v => v.getLsbD (j % 8)) hbyte
  simp only [frameByte, BitVec.getLsbD_extractLsb'] at hbit
  have e1 : j % 8 < 8 := by omega
  have e2 : 8 * (j / 8) + j % 8 = j := by omega
  simpa [e1, e2] using hbit

end Sys2Proof.Machine
end

