-- ==== Sys2Proof/Laws/Framer.lean ====
section
/-! SUPPORT. Laws/Framer.lean: everything one push of the Framer can do (40_framer R101 to R106), in its three branches. -/

namespace Sys2Proof.Machine

@[simp] theorem window_setPrev_winAppend (b : Byte) (s : State) (h : StorageOk s) :
    window (setPrev b (winAppend b s)) = windowAppend (window s) b := by
  rw [window_setPrev, window_winAppend b s h]

/-- The terminator at the fourteenth byte: the frame is the appended window, and the window is cleared. -/
theorem framerPush_complete (b : Byte) (s : State) (h : StorageOk s) (hc : Completes s b) :
    framerPush b s =
      (emitFrame (packFrame (windowAppend (window s) b)) (winClear (setPrev b (winAppend b s))),
        some (packFrame (windowAppend (window s) b))) := by
  unfold framerPush
  simp only [window_setPrev_winAppend b s h, winCap]
  rw [if_pos hc]

/-- Any other LF: the window is cleared and nothing is emitted. -/
theorem framerPush_resync (s : State) (h : StorageOk s) (hc : ¬ Completes s LF) :
    framerPush LF s = (winClear (setPrev LF (winAppend LF s)), none) := by
  unfold framerPush
  have hc' : ¬ (s.prev = CR ∧ (windowAppend (window s) LF).length = 14) := fun hn => hc ⟨rfl, hn⟩
  simp [window_winAppend LF s h, winCap, hc']

/-- Any other byte: the window grows or slides. -/
theorem framerPush_accumulate (b : Byte) (s : State) (hb : b ≠ LF) :
    framerPush b s = (setPrev b (winAppend b s), none) := by
  unfold framerPush
  simp [hb]

/-- The three branches of a push. -/
theorem framerPush_cases (b : Byte) (s : State) (h : StorageOk s) :
    (Completes s b ∧ framerPush b s =
      (emitFrame (packFrame (windowAppend (window s) b)) (winClear (setPrev b (winAppend b s))),
        some (packFrame (windowAppend (window s) b)))) ∨
    (¬ Completes s b ∧ b = LF ∧ framerPush b s = (winClear (setPrev b (winAppend b s)), none)) ∨
    (b ≠ LF ∧ framerPush b s = (setPrev b (winAppend b s), none)) := by
  by_cases hc : Completes s b
  · exact .inl ⟨hc, framerPush_complete b s h hc⟩
  · by_cases hb : b = LF
    · subst hb
      exact .inr (.inl ⟨hc, rfl, framerPush_resync s h hc⟩)
    · exact .inr (.inr ⟨hb, framerPush_accumulate b s hb⟩)

/-- A push that emits a frame shows it on the frame output (10_state R25). -/
theorem framerPush_emits (b : Byte) (s : State) (f : Frame) (h : (framerPush b s).2 = some f) :
    (framerPush b s).1.frameValid = true ∧ (framerPush b s).1.frameOut = f := by
  unfold framerPush at *
  dsimp only at *
  split at h
  · rename_i hc
    cases h
    rw [if_pos hc]
    exact ⟨rfl, rfl⟩
  · split at h <;> cases h

/-- A push that emits nothing leaves the frame output's strobe as it was. -/
theorem framerPush_silent (b : Byte) (s : State) (h : (framerPush b s).2 = none) :
    (framerPush b s).1.frameValid = s.frameValid := by
  unfold framerPush at *
  dsimp only at *
  split at h
  · cases h
  · rename_i hc
    rw [if_neg hc]
    split <;> simp

/-- An LF completes a frame after a CR with thirteen bytes in the window. -/
theorem completes_LF_iff (s : State) (h : StorageOk s) :
    Completes s LF ↔ s.prev = CR ∧ 13 ≤ (window s).length := by
  have hc := h.2
  unfold Completes windowAppend
  simp only [window_length, true_and]
  refine and_congr_right fun _ => ?_
  split <;> simp <;> omega

/-- What a push never touches, whatever the state (40_framer R101; the ports other than the frame's are the step's). -/
theorem framerPush_frame (b : Byte) (s : State) :
    (framerPush b s).1.prev = b ∧ (framerPush b s).1.rdActive = s.rdActive ∧
    (framerPush b s).1.attempts = s.attempts ∧ (framerPush b s).1.status = s.status ∧
    (framerPush b s).1.readingValid = s.readingValid ∧ (framerPush b s).1.reading = s.reading ∧
    (framerPush b s).1.config = s.config ∧ (framerPush b s).1.errorInfo = s.errorInfo ∧
    (framerPush b s).1.inputs = s.inputs := by
  unfold framerPush
  dsimp only
  split
  · simp
  · split <;> simp

/-- A push keeps the storage registers in range. -/
theorem framerPush_storageOk (b : Byte) (s : State) (h : StorageOk s) : StorageOk (framerPush b s).1 := by
  have hw := winAppend_storageOk b s h
  rcases framerPush_cases b s h with ⟨_, e⟩ | ⟨_, _, e⟩ | ⟨_, e⟩ <;> rw [e] <;> simp [StorageOk, hw.1, hw.2]

end Sys2Proof.Machine
end

