-- ==== Sys2Proof/Laws/Operands.lean ====
section
/-! SUPPORT. Laws/Operands.lean: each field of a frame as a field of its 112-bit value (30_encoding R71, R72), the table
selection as its two flag bits, FLAGS bit by bit. -/

namespace Sys2Proof

/-- A field of a byte of a frame is a field of the frame. -/
theorem extract_frameByte (f : Frame) (i n : Nat) (h : n ≤ 8) :
    (frameByte f i).extractLsb' 0 n = f.extractLsb' (8 * i) n := by
  apply BitVec.eq_of_getLsbD_eq
  intro j hj
  have h8 : 0 + j < 8 := by omega
  simp only [frameByte, BitVec.getLsbD_extractLsb', hj, h8, decide_true, Bool.true_and]
  congr 1
  omega

/-- `RANGE(F) = F[0][2:0]`. -/
theorem rangeCode_eq (f : Frame) : rangeCode f = f.extractLsb' 0 3 := extract_frameByte f 0 3 (by decide)

/-- `MTYPE(F) = F[6][3:0]`. -/
theorem mtypeCode_eq (f : Frame) : mtypeCode f = f.extractLsb' 48 4 := extract_frameByte f 6 4 (by decide)

/-- `DIGIT(F,k) = F[k][3:0]`. -/
theorem digit_eq (f : Frame) (k : Nat) : digit f k = f.extractLsb' (8 * k) 4 := extract_frameByte f k 4 (by decide)

/-- Every bit of `FLAGS` is its frame bit (10_state R41). -/
theorem flagsOf_copied (f : Frame) : Machine.FlagsCopied (flagsOf f) f := by
  unfold Machine.FlagsCopied flagsOf
  refine ⟨?_, ?_, ?_, ?_, ?_, ?_, ?_, ?_, ?_, ?_, ?_, ?_, ?_⟩ <;> exact BitVec.getLsbD_ofBoolListLE

namespace Machine

/-- Table selection answers exactly the table the PERCENT and HZ bits choose (41_decoder R136). -/
theorem selectTable_some_iff (f : Frame) (me : MtEntry) (t : Nibble) :
    selectTable f me = some t ↔ TableChosen f me t := by
  unfold TableChosen selectTable flagPercent flagHz frameBit
  simp only [Nat.reduceMul, Nat.reduceAdd]
  cases f.getLsbD 59 <;> cases f.getLsbD 80 <;> simp <;> exact eq_comm

/-- Nothing selects a table exactly when both bits are clear and the mode has none. -/
theorem selectTable_none_iff (f : Frame) (me : MtEntry) :
    selectTable f me = none ↔ f.getLsbD 59 = false ∧ f.getLsbD 80 = false ∧ me.table = none := by
  unfold selectTable flagPercent flagHz frameBit
  simp only [Nat.reduceMul, Nat.reduceAdd]
  cases f.getLsbD 59 <;> cases f.getLsbD 80 <;> simp

end Machine

end Sys2Proof
end

