-- ==== Sys2Proof/Laws/PerInstr.lean ====
section
/-! SUPPORT. Laws/PerInstr.lean: statements made per instruction. OpcodeFixed: the encoding of a well-formed instruction has
the fixed bits of its row of spec/opcode_table.json (30_encoding R80, R74). -/

namespace Sys2Proof.Laws.OpcodeFixed

/-- The fixed bits of the instruction's opcode-table row: in a command word under the mask 0x700, in byte 6 of a frame under
the mask 0x0F. -/
def Statement (i : Instr) : Prop :=
  i.wellFormed = true →
    match i with
    | .idle => ∃ x, encode i = .command x ∧ x.cmd &&& 0x700 = 0x0
    | .push _ => ∃ x, encode i = .command x ∧ x.cmd &&& 0x700 = 0x100
    | .decode _ => ∃ x, encode i = .command x ∧ x.cmd &&& 0x700 = 0x200
    | .reset => ∃ x, encode i = .command x ∧ x.cmd &&& 0x700 = 0x300
    | .rdstart => ∃ x, encode i = .command x ∧ x.cmd &&& 0x700 = 0x400
    | .reservedOp5 => ∃ x, encode i = .command x ∧ x.cmd &&& 0x700 = 0x500
    | .reservedOp6 => ∃ x, encode i = .command x ∧ x.cmd &&& 0x700 = 0x600
    | .reservedOp7 => ∃ x, encode i = .command x ∧ x.cmd &&& 0x700 = 0x700
    | .mtype0 _ => ∃ g, encode i = .frame g ∧ frameByte g 6 &&& 0x0F = 0
    | .mtype1 _ => ∃ g, encode i = .frame g ∧ frameByte g 6 &&& 0x0F = 1
    | .mtype2 _ => ∃ g, encode i = .frame g ∧ frameByte g 6 &&& 0x0F = 2
    | .mtype3 _ => ∃ g, encode i = .frame g ∧ frameByte g 6 &&& 0x0F = 3
    | .mtype4 _ => ∃ g, encode i = .frame g ∧ frameByte g 6 &&& 0x0F = 4
    | .mtype5 _ => ∃ g, encode i = .frame g ∧ frameByte g 6 &&& 0x0F = 5
    | .mtype6 _ => ∃ g, encode i = .frame g ∧ frameByte g 6 &&& 0x0F = 6
    | .mtype7 _ => ∃ g, encode i = .frame g ∧ frameByte g 6 &&& 0x0F = 7
    | .mtype8 _ => ∃ g, encode i = .frame g ∧ frameByte g 6 &&& 0x0F = 8
    | .mtype9 _ => ∃ g, encode i = .frame g ∧ frameByte g 6 &&& 0x0F = 9
    | .mtype10 _ => ∃ g, encode i = .frame g ∧ frameByte g 6 &&& 0x0F = 10
    | .mtype11 _ => ∃ g, encode i = .frame g ∧ frameByte g 6 &&& 0x0F = 11
    | .mtype12 _ => ∃ g, encode i = .frame g ∧ frameByte g 6 &&& 0x0F = 12
    | .mtype13 _ => ∃ g, encode i = .frame g ∧ frameByte g 6 &&& 0x0F = 13
    | .mtype14 _ => ∃ g, encode i = .frame g ∧ frameByte g 6 &&& 0x0F = 14
    | .mtype15 _ => ∃ g, encode i = .frame g ∧ frameByte g 6 &&& 0x0F = 15

/-- A command word of operation `op`, masked, is `op` alone. -/
theorem mask_cmdWord (op : BitVec 3) (d : Byte) : cmdWord op d &&& 0x700 = op.setWidth 11 <<< (8 : Nat) := by
  revert op
  revert d
  decide +kernel

/-- The low nibble of byte 6 is the measurement-type code. -/
theorem mask_byte6 (f : Frame) (m : Nibble) (h : (mtypeCode f == m) = true) : frameByte f 6 &&& 0x0F = m.setWidth 8 := by
  have hm : (frameByte f 6).extractLsb' 0 4 = m := by simpa [mtypeCode] using h
  rw [← hm]
  generalize frameByte f 6 = b
  revert b
  decide +kernel

theorem idle : Statement .idle := fun _ => ⟨_, rfl, mask_cmdWord 0 0⟩
theorem push (b : Byte) : Statement (.push b) := fun _ => ⟨_, rfl, mask_cmdWord 1 b⟩
theorem decode (f : Frame) : Statement (.decode f) := fun _ => ⟨_, rfl, mask_cmdWord 2 0⟩
theorem reset : Statement .reset := fun _ => ⟨_, rfl, mask_cmdWord 3 0⟩
theorem rdstart : Statement .rdstart := fun _ => ⟨_, rfl, mask_cmdWord 4 0⟩
theorem reservedOp5 : Statement .reservedOp5 := fun _ => ⟨_, rfl, mask_cmdWord 5 0⟩
theorem reservedOp6 : Statement .reservedOp6 := fun _ => ⟨_, rfl, mask_cmdWord 6 0⟩
theorem reservedOp7 : Statement .reservedOp7 := fun _ => ⟨_, rfl, mask_cmdWord 7 0⟩
theorem mtype0 (f : Frame) : Statement (.mtype0 f) := fun h => ⟨f, rfl, mask_byte6 f 0 h⟩
theorem mtype1 (f : Frame) : Statement (.mtype1 f) := fun h => ⟨f, rfl, mask_byte6 f 1 h⟩
theorem mtype2 (f : Frame) : Statement (.mtype2 f) := fun h => ⟨f, rfl, mask_byte6 f 2 h⟩
theorem mtype3 (f : Frame) : Statement (.mtype3 f) := fun h => ⟨f, rfl, mask_byte6 f 3 h⟩
theorem mtype4 (f : Frame) : Statement (.mtype4 f) := fun h => ⟨f, rfl, mask_byte6 f 4 h⟩
theorem mtype5 (f : Frame) : Statement (.mtype5 f) := fun h => ⟨f, rfl, mask_byte6 f 5 h⟩
theorem mtype6 (f : Frame) : Statement (.mtype6 f) := fun h => ⟨f, rfl, mask_byte6 f 6 h⟩
theorem mtype7 (f : Frame) : Statement (.mtype7 f) := fun h => ⟨f, rfl, mask_byte6 f 7 h⟩
theorem mtype8 (f : Frame) : Statement (.mtype8 f) := fun h => ⟨f, rfl, mask_byte6 f 8 h⟩
theorem mtype9 (f : Frame) : Statement (.mtype9 f) := fun h => ⟨f, rfl, mask_byte6 f 9 h⟩
theorem mtype10 (f : Frame) : Statement (.mtype10 f) := fun h => ⟨f, rfl, mask_byte6 f 10 h⟩
theorem mtype11 (f : Frame) : Statement (.mtype11 f) := fun h => ⟨f, rfl, mask_byte6 f 11 h⟩
theorem mtype12 (f : Frame) : Statement (.mtype12 f) := fun h => ⟨f, rfl, mask_byte6 f 12 h⟩
theorem mtype13 (f : Frame) : Statement (.mtype13 f) := fun h => ⟨f, rfl, mask_byte6 f 13 h⟩
theorem mtype14 (f : Frame) : Statement (.mtype14 f) := fun h => ⟨f, rfl, mask_byte6 f 14 h⟩
theorem mtype15 (f : Frame) : Statement (.mtype15 f) := fun h => ⟨f, rfl, mask_byte6 f 15 h⟩

end Sys2Proof.Laws.OpcodeFixed
end

