-- ==== Sys2Proof/Laws/Reader.lean ====
section
/-! SUPPORT. Laws/Reader.lean: everything one attempt of the bounded reader can do (42_stream_reader R185). -/

namespace Sys2Proof.Machine

theorem readerAttempt_idle (f : Option Frame) (s : State) (h : s.rdActive = false) : readerAttempt f s = s := by
  simp [readerAttempt, h]

theorem readerAttempt_frame (f : Frame) (s : State) (h : s.rdActive = true) :
    readerAttempt (some f) s = readerStop s := by
  simp [readerAttempt, h]

theorem readerAttempt_exhausted (s : State) (h : s.rdActive = true) (hn : s.attempts + 1 = s.config.budget) :
    readerAttempt none s = raise .readExhausted (readerStop s) := by
  simp [readerAttempt, h, hn]

theorem readerAttempt_counted (s : State) (h : s.rdActive = true) (hn : s.attempts + 1 ≠ s.config.budget) :
    readerAttempt none s = countAttempt (s.attempts + 1) s := by
  simp [readerAttempt, h, hn]

/-- The four things an attempt can be. -/
theorem readerAttempt_cases (f : Option Frame) (s : State) :
    (s.rdActive = false ∧ readerAttempt f s = s) ∨
    (s.rdActive = true ∧ (∃ g, f = some g) ∧ readerAttempt f s = readerStop s) ∨
    (s.rdActive = true ∧ f = none ∧ s.attempts + 1 = s.config.budget ∧
      readerAttempt f s = raise .readExhausted (readerStop s)) ∨
    (s.rdActive = true ∧ f = none ∧ s.attempts + 1 ≠ s.config.budget ∧
      readerAttempt f s = countAttempt (s.attempts + 1) s) := by
  cases hr : s.rdActive with
  | false => exact .inl ⟨rfl, readerAttempt_idle f s hr⟩
  | true =>
    cases f with
    | some g => exact .inr (.inl ⟨rfl, ⟨g, rfl⟩, readerAttempt_frame g s hr⟩)
    | none =>
      by_cases hn : s.attempts + 1 = s.config.budget
      · exact .inr (.inr (.inl ⟨rfl, rfl, hn, readerAttempt_exhausted s hr hn⟩))
      · exact .inr (.inr (.inr ⟨rfl, rfl, hn, readerAttempt_counted s hr hn⟩))

/-- What an attempt never touches (42_stream_reader R187): the Framer, the frame output, the Reading, the configuration. -/
theorem readerAttempt_frameRule (f : Option Frame) (s : State) :
    (readerAttempt f s).wmem = s.wmem ∧ (readerAttempt f s).whead = s.whead ∧ (readerAttempt f s).wcnt = s.wcnt ∧
    window (readerAttempt f s) = window s ∧ (readerAttempt f s).prev = s.prev ∧
    (readerAttempt f s).frameValid = s.frameValid ∧ (readerAttempt f s).frameOut = s.frameOut ∧
    (readerAttempt f s).reading = s.reading ∧ (readerAttempt f s).config = s.config ∧
    (readerAttempt f s).inputs = s.inputs := by
  rcases readerAttempt_cases f s with ⟨_, e⟩ | ⟨_, _, e⟩ | ⟨_, _, _, e⟩ | ⟨_, _, _, e⟩ <;> rw [e] <;> simp

/-- An attempt that has a frame reports nothing of its own: STATUS and the Reading stay the decode's (60_exceptions R210). -/
theorem readerAttempt_some_ports (f : Frame) (s : State) :
    (readerAttempt (some f) s).status = s.status ∧ (readerAttempt (some f) s).readingValid = s.readingValid ∧
    (readerAttempt (some f) s).errorInfo = s.errorInfo := by
  cases hr : s.rdActive with
  | false => simp [readerAttempt_idle _ _ hr]
  | true => simp [readerAttempt_frame _ _ hr]

/-- The budget is at least fourteen (K ≥ 1). -/
theorem budget_pos (c : Config) : 14 ≤ c.budget := by
  have := c.multiple.pos
  unfold Config.budget
  omega

/-- Every count up to the budget fits `ATTEMPTS` (10_state R27). -/
theorem budget_fits (c : Config) : c.budget < 2 ^ c.attemptsWidth := by
  unfold Config.attemptsWidth
  exact Nat.lt_log2_self

/-- A count below the budget is stored as it is. -/
theorem countAttempt_exact (c : Config) (n : Nat) (h : n ≤ c.budget) : n % 2 ^ c.attemptsWidth = n :=
  Nat.mod_eq_of_lt (Nat.lt_of_le_of_lt h (budget_fits c))

end Sys2Proof.Machine
end

