-- ==== Sys2Proof/Laws/Step.lean ====
section
/-! SUPPORT. Laws/Step.lean: what a PUSH can do, in its branches; a measurement-type instruction is a step of the Decoder;
everything an instruction that goes on can have been. -/

namespace Sys2Proof.Machine

/-- A PUSH that emits nothing goes on, with one attempt made. -/
theorem execPush_none (b : Byte) (s : State) (ha : s.config.admitted = true)
    (h : (framerPush b (clearOutputs s)).2 = none) :
    execPush b s = .next (readerAttempt none (framerPush b (clearOutputs s)).1) := by
  unfold execPush corePush
  rw [ifAdmitted_admitted _ _ ha]
  split
  · rename_i s1 e
    rw [e]
  · rename_i s1 f e
    rw [e] at h
    cases h

/-- A PUSH that emits `f` runs the Decoder on it (42_stream_reader R180). -/
theorem execPush_some (b : Byte) (s : State) (f : Frame) (ha : s.config.admitted = true)
    (h : (framerPush b (clearOutputs s)).2 = some f) :
    execPush b s = conclude (decodeAs s.config (mtypeCode f) f)
      (readerAttempt (some f)
        (present (decodeAs s.config (mtypeCode f) f) (framerPush b (clearOutputs s)).1)) := by
  unfold execPush corePush
  rw [ifAdmitted_admitted _ _ ha]
  split
  · rename_i s1 e
    rw [e] at h
    cases h
  · rename_i s1 g e
    rw [e] at h
    cases h
    rw [e]

/-- Everything a PUSH that goes on can have done. -/
theorem execPush_next (b : Byte) (s t : State) (h : execPush b s = .next t) :
    s.config.admitted = true ∧
    (((framerPush b (clearOutputs s)).2 = none ∧
      t = readerAttempt none (framerPush b (clearOutputs s)).1) ∨
    (∃ f, (framerPush b (clearOutputs s)).2 = some f ∧
      (∀ u, decodeAs s.config (mtypeCode f) f ≠ .invariant u) ∧
      t = readerAttempt (some f)
        (present (decodeAs s.config (mtypeCode f) f) (framerPush b (clearOutputs s)).1))) := by
  have ha := (ifAdmitted_next _ _ _ h).1
  refine ⟨ha, ?_⟩
  cases hf : (framerPush b (clearOutputs s)).2 with
  | none =>
    rw [execPush_none b s ha hf] at h
    exact .inl ⟨rfl, by simpa using h.symm⟩
  | some f =>
    rw [execPush_some b s f ha hf] at h
    obtain ⟨e, hu⟩ := conclude_next _ _ _ h
    exact .inr ⟨f, rfl, hu, e⟩

/-- A measurement-type instruction is one step of the Decoder with its code. -/
theorem exec_mtypeInstr (m : Nibble) (f : Frame) (s : State) : exec (mtypeInstr m f) s = decodeStep m f s := by
  obtain ⟨⟨m, hm⟩⟩ := m
  interval_cases m <;> rfl

/-- DECODE and the measurement-type rows are one step of the Decoder with their mode code. -/
theorem exec_runsDecoder (i : Instr) (m : Nibble) (f : Frame) (s : State) (h : RunsDecoder i m f) :
    exec i s = decodeStep m f s := by
  rcases h with ⟨rfl, rfl⟩ | h
  · rw [← mtypeCode_eq]
    rfl
  · obtain ⟨⟨k, hk⟩⟩ := m
    have hi : i = mtypeInstr ⟨⟨k, hk⟩⟩ f := by
      rcases h with h | h | h | h | h | h | h | h | h | h | h | h | h | h | h | h <;> rw [h.1, h.2] <;> rfl
    rw [hi, exec_mtypeInstr]

/-- The instructions are the command rows and the measurement-type rows. -/
theorem instr_cases (i : Instr) :
    i = .idle ∨ (∃ b, i = .push b) ∨ (∃ f, i = .decode f) ∨ i = .reset ∨ i = .rdstart ∨ i.isReserved = true ∨
    ∃ m f, i = mtypeInstr m f := by
  cases i with
  | idle => simp
  | push b => simp
  | decode f => simp
  | reset => simp
  | rdstart => simp
  | reservedOp5 => simp [Instr.isReserved]
  | reservedOp6 => simp [Instr.isReserved]
  | reservedOp7 => simp [Instr.isReserved]
  | mtype0 f => exact .inr (.inr (.inr (.inr (.inr (.inr ⟨0, f, rfl⟩)))))
  | mtype1 f => exact .inr (.inr (.inr (.inr (.inr (.inr ⟨1, f, rfl⟩)))))
  | mtype2 f => exact .inr (.inr (.inr (.inr (.inr (.inr ⟨2, f, rfl⟩)))))
  | mtype3 f => exact .inr (.inr (.inr (.inr (.inr (.inr ⟨3, f, rfl⟩)))))
  | mtype4 f => exact .inr (.inr (.inr (.inr (.inr (.inr ⟨4, f, rfl⟩)))))
  | mtype5 f => exact .inr (.inr (.inr (.inr (.inr (.inr ⟨5, f, rfl⟩)))))
  | mtype6 f => exact .inr (.inr (.inr (.inr (.inr (.inr ⟨6, f, rfl⟩)))))
  | mtype7 f => exact .inr (.inr (.inr (.inr (.inr (.inr ⟨7, f, rfl⟩)))))
  | mtype8 f => exact .inr (.inr (.inr (.inr (.inr (.inr ⟨8, f, rfl⟩)))))
  | mtype9 f => exact .inr (.inr (.inr (.inr (.inr (.inr ⟨9, f, rfl⟩)))))
  | mtype10 f => exact .inr (.inr (.inr (.inr (.inr (.inr ⟨10, f, rfl⟩)))))
  | mtype11 f => exact .inr (.inr (.inr (.inr (.inr (.inr ⟨11, f, rfl⟩)))))
  | mtype12 f => exact .inr (.inr (.inr (.inr (.inr (.inr ⟨12, f, rfl⟩)))))
  | mtype13 f => exact .inr (.inr (.inr (.inr (.inr (.inr ⟨13, f, rfl⟩)))))
  | mtype14 f => exact .inr (.inr (.inr (.inr (.inr (.inr ⟨14, f, rfl⟩)))))
  | mtype15 f => exact .inr (.inr (.inr (.inr (.inr (.inr ⟨15, f, rfl⟩)))))

/-- A reserved instruction never goes on. -/
theorem exec_reserved (i : Instr) (s : State) (h : i.isReserved = true) :
    ∃ op, exec i s = .refused (.reservedOperation op) := by
  cases i <;> first
    | exact ⟨_, rfl⟩
    | cases h

/-- An instruction that is not reserved has no step under an inadmissible configuration (92 D37). -/
theorem exec_inadmissible (i : Instr) (s : State) (hr : i.isReserved = false) (h : s.config.admitted = false) :
    exec i s = .refused .badConfiguration := by
  cases i <;> first
    | exact ifAdmitted_refused _ _ h
    | cases hr

/-- Everything an instruction that goes on can have been. -/
theorem exec_next_cases (i : Instr) (s t : State) (h : exec i s = .next t) :
    s.config.admitted = true ∧
    ((i = .idle ∧ t = readerAttempt none (clearOutputs s)) ∨
    (∃ b, i = .push b ∧ execPush b s = .next t) ∨
    (∃ m f, (i = .decode f ∧ m = mtypeCode f ∨ i = mtypeInstr m f) ∧ decodeStep m f s = .next t) ∨
    (i = .reset ∧ t = resetRegisters (clearOutputs s)) ∨
    (i = .rdstart ∧ t = readerStart (clearOutputs s))) := by
  rcases instr_cases i with rfl | ⟨b, rfl⟩ | ⟨f, rfl⟩ | rfl | rfl | hr | ⟨m, f, rfl⟩
  · obtain ⟨ha, hn⟩ := ifAdmitted_next _ _ _ h
    exact ⟨ha, .inl ⟨rfl, by simpa using hn.symm⟩⟩
  · exact ⟨(execPush_next b s t h).1, .inr (.inl ⟨b, rfl, h⟩)⟩
  · exact ⟨(decodeStep_next _ _ _ _ h).1, .inr (.inr (.inl ⟨_, f, .inl ⟨rfl, rfl⟩, h⟩))⟩
  · obtain ⟨ha, hn⟩ := ifAdmitted_next _ _ _ h
    exact ⟨ha, .inr (.inr (.inr (.inl ⟨rfl, by simpa using hn.symm⟩)))⟩
  · obtain ⟨ha, hn⟩ := ifAdmitted_next _ _ _ h
    exact ⟨ha, .inr (.inr (.inr (.inr ⟨rfl, by simpa using hn.symm⟩)))⟩
  · obtain ⟨op, e⟩ := exec_reserved i s hr
    rw [e] at h
    cases h
  · rw [exec_mtypeInstr] at h
    exact ⟨(decodeStep_next _ _ _ _ h).1, .inr (.inr (.inl ⟨m, f, .inr rfl, h⟩))⟩

theorem step_waiting (s : State) (x : Input) (rest : List Input) (h : s.inputs = x :: rest) :
    step s = exec (decodeCommand x) (setInputs rest s) := by
  simp [step, fetch, h]

theorem step_empty (s : State) (h : s.inputs = []) : step s = .next s := by
  simp [step, fetch, betweenCommands, h]

end Sys2Proof.Machine
end

