-- ==== Sys2Proof/Tests/Slice0.lean ====
section
/-! SUPPORT. Tests/Slice0.lean: the model's own tests and the witnesses of the statements' hypotheses. Expected values come from
spec/95_test_vectors.md, named in each test, or are worked by hand from the cited rule. -/

namespace Sys2Proof.Tests

open Sys2Proof Sys2Proof.Machine

set_option Elab.async false

/-! ### Helpers: the configuration TC of 95_test_vectors, small states, outcomes -/

/-- A present Measurement-Type word with label `l` and a table or none. -/
def mtWord (l : Nat) (t : Option Nibble) : MtWord := ⟨true, t.isSome, t.getD 0, .label l⟩

/-- A present range word with label `l`, unit `u` and exponent `e`. -/
def rtWord (l : Nat) (u : Nibble) (e : Int) : RtWord := ⟨true, u, BitVec.ofInt 6 e, .label l⟩

/-- Eight slots, the unlisted ones absent. -/
def slots (l : List RtWord) : List RtWord := l ++ List.replicate (8 - l.length) RtWord.blank

/-- The Measurement-Type table of TC. -/
def tcMt : List MtWord :=
  [mtWord 0 (some 7), mtWord 1 (some 2), mtWord 2 (some 1), mtWord 3 (some 3), mtWord 4 none, mtWord 5 (some 3),
    mtWord 6 (some 4), MtWord.blank] ++
  [MtWord.blank, mtWord 9 (some 7), MtWord.blank, mtWord 11 (some 2), MtWord.blank, mtWord 13 (some 5), mtWord 14 none,
    mtWord 15 (some 6)]

/-- The range tables of TC. -/
def tcRt : List (List RtWord) :=
  [slots [rtWord 100 14 (-2)],
    slots [rtWord 110 11 (-2), rtWord 111 11 (-1), rtWord 112 12 (-3), rtWord 113 12 (-2), rtWord 114 13 (-4),
      rtWord 115 13 (-3), rtWord 116 13 (-2)],
    slots [rtWord 120 0 (-4), rtWord 121 0 (-3), rtWord 122 0 (-2), rtWord 123 0 (-1), rtWord 124 1 (-2)],
    slots [rtWord 130 5 (-2), rtWord 131 6 (-4), rtWord 132 6 (-3), rtWord 133 6 (-2), rtWord 134 7 (-4),
      rtWord 135 7 (-3), rtWord 136 7 (-2)]] ++
  [slots [rtWord 140 8 (-3), rtWord 141 8 (-2), rtWord 142 9 (-4), rtWord 143 9 (-3), rtWord 144 9 (-2),
      rtWord 145 10 (-4), rtWord 146 10 (-3), rtWord 147 10 (-2)],
    slots [rtWord 150 4 (-2), rtWord 151 4 (-1)],
    slots [rtWord 160 3 (-3), rtWord 161 3 (-2)],
    slots [rtWord 170 2 (-3)]]

/-- TC with K = 1. -/
def tc : Config := ⟨tcMt, tcRt, 3, ⟨1, by decide⟩⟩

/-- TC′: TC with a range entry of an unmapped unit in slot 1 of table 7. -/
def tcPrime : Config := { tc with rt := tc.rt.set 7 (slots [rtWord 170 2 (-3), rtWord 171 15 (-3)]) }

/-- TC with a Measurement-Type table of fifteen entries: fails WF1. -/
def tcShort : Config := { tc with mt := tc.mt.take 15 }

/-- The core right after reset with configuration TC. -/
def s0 : State := State.resetOf tc

/-- The Framer of `s0` with the window `w` and the previous byte `p`. -/
def win (w : List Byte) (p : Byte) : State :=
  { s0 with wmem := Vector.ofFn (fun i : Fin 14 => w.getD i.val 0), wcnt := BitVec.ofNat 4 w.length, prev := p }

/-- `s0` with a read in progress that has used `n` attempts. -/
def reading (n : Nat) : State := { s0 with rdActive := true, attempts := n }

/-- The frame with the byte 6 `b` and zero elsewhere. -/
def byte6 (b : Byte) : Frame := b.setWidth 112 <<< (48 : Nat)

/-- Frames of 95_test_vectors 3.2 (byte 0 in the least significant bits, 30_encoding R71). -/
def dv1 : Frame := 0x0A0D30383030303B333231303032
def dv2 : Frame := 0x0A0D30383030343B333231303032
def dv4 : Frame := 0x0A0D303230303033303030323234
def dv5 : Frame := 0x0A0D303030303832303030303130
def dv6 : Frame := 0x0A0D30383030383B303030353030
def dv8 : Frame := 0x0A0D303130303034303030353030
def dv9 : Frame := 0x0A0D303030303034303030353030
def dv12 : Frame := 0x0A0D30383030303B303030303035
def dv16 : Frame := 0x0A0D30383030343B303030303030
def dv17 : Frame := 0x0000FDC8F000008B53A20170C0F2
def dv18 : Frame := 0xFFFF30383030303B333231303032
def dv19 : Frame := 0x0A0D303030303030303030303031
def dv20 : Frame := 0x0A0D323F3E323F3B313030303030

/-- The twelve payload bytes of DV1, and of PAY (95_test_vectors 3.1). -/
def dvPay : List Byte := [0x32, 0x30, 0x30, 0x31, 0x32, 0x33, 0x3B, 0x30, 0x30, 0x30, 0x38, 0x30]
def pay : List Byte := [0x30, 0x30, 0x31, 0x32, 0x33, 0x34, 0x3B, 0x30, 0x30, 0x30, 0x3A, 0x30]

/-- The step goes on to a state with the property `p`. -/
def goes (o : Host.Outcome State Fault Refusal) (p : State → Bool) : Bool :=
  match o with
  | .next t => p t
  | .fault _ => false
  | .refused _ => false

/-- The step ends in the invariant fault, leaving a state with the property `p`. -/
def faults (o : Host.Outcome State Fault Refusal) (p : Nibble → State → Bool) : Bool :=
  match o with
  | .next _ => false
  | .fault (.invariant u t) => p u t
  | .refused _ => false

/-- The step is refused, and why. -/
def refusal (o : Host.Outcome State Fault Refusal) : Option Refusal :=
  match o with
  | .next _ => none
  | .fault _ => none
  | .refused r => some r

/-- The numbers of a Reading: TABLE, RANGE, UNIT, the scaled value and the normalised value. -/
def numbers (t : State) : List Int :=
  [t.reading.table.toNat, t.reading.range.toNat, t.reading.unit.toNat, t.reading.valMant.toInt, t.reading.valExp.toInt,
    t.reading.normUnit.toNat, t.reading.normMant.toInt, t.reading.normExp.toInt]

/-- The step shows a Reading with these numbers and FLAGS. -/
def reads (o : Host.Outcome State Fault Refusal) (flags : BitVec 13) (n : List Int) : Bool :=
  goes o fun t => t.readingValid && t.status == 0 && t.reading.flags == flags && numbers t == n

/-- The step reports this error on STATUS, with no Reading. -/
def reports (o : Host.Outcome State Fault Refusal) (e : ErrorInfo) (code : BitVec 3) : Bool :=
  goes o fun t => !t.readingValid && t.status == code && t.errorInfo == some e

/-! ### WellFormed, and the admission of a configuration -/

/-- Each check refuses a frame of another type. -/
theorem test_wellFormed_refuses :
    [Instr.mtype0 (byte6 0x31), .mtype1 (byte6 0x30), .mtype2 (byte6 0x33), .mtype3 (byte6 0x32),
      .mtype4 (byte6 0x3C), .mtype5 (byte6 0x34), .mtype6 (byte6 0x37), .mtype7 (byte6 0x73)].all
        (fun i => !i.wellFormed) = true ∧
    [Instr.mtype8 (byte6 0x80), .mtype9 (byte6 0x3B), .mtype10 (byte6 0x3B), .mtype11 (byte6 0x3A),
      .mtype12 (byte6 0x34), .mtype13 (byte6 0x35), .mtype14 (byte6 0x3F), .mtype15 (byte6 0xF0)].all
        (fun i => !i.wellFormed) = true := by decide

/-- Witness of `DecodeOfEncode`: a well-formed term of every constructor. -/
theorem witness_DecodeOfEncode :
    [Instr.idle, .push 0x3B, .decode dv1, .reset, .rdstart, .reservedOp5, .reservedOp6, .reservedOp7].all
        Instr.wellFormed = true ∧
    [Instr.mtype0 (byte6 0x30), .mtype1 (byte6 0xF1), .mtype2 (byte6 2), .mtype3 (byte6 3), .mtype4 (byte6 4),
      .mtype5 (byte6 5), .mtype6 (byte6 6), .mtype7 (byte6 7)].all Instr.wellFormed = true ∧
    [Instr.mtype8 (byte6 8), .mtype9 (byte6 9), .mtype10 (byte6 10), .mtype11 dv1, .mtype12 (byte6 12),
      .mtype13 (byte6 13), .mtype14 (byte6 14), .mtype15 (byte6 15)].all Instr.wellFormed = true := by decide

/-- TC passes WF1 to WF7; TC′ fails only WF7 and is admitted (95_test_vectors 2). -/
theorem test_tc_admitted :
    tc.admitted = true ∧ tc.wf7 = true ∧ tcPrime.admitted = true ∧ tcPrime.wf7 = false := by decide +kernel

/-- Each of WF1 to WF6 refuses a configuration that breaks it alone in one point (41_decoder R155). -/
theorem test_admission_refuses :
    tcShort.wf1 = false ∧ Config.wf1 { tc with mt := tc.mt.set 7 (mtWord 7 none) } = false ∧
    Config.wf2 { tc with rt := tc.rt.set 4 (tcRt.getD 4 [] |>.take 7) } = false ∧
    Config.wf3 { tc with rt := tc.rt.set 0 (slots [⟨true, 14, 0, .empty⟩]) } = false ∧
    Config.wf4 { tc with mt := tc.mt.set 0 (mtWord 0 (some 8)) } = false ∧
    Config.wf5 { tc with rt := tc.rt.take 7 } = false ∧
    Config.wf6 { tc with numCurrent := 1 } = false ∧ Config.wf6 { tc with numCurrent := 12 } = false := by
  decide +kernel

/-! ### Decoding: every constructor's word, bit by bit from 30_encoding R80 and R72 -/

/-- `OP` in bits 10..8, `DATA` in bits 7..0; other `DATA` than zero where it is ignored (R81, R86). -/
theorem test_decode_commands :
    decode (.command ⟨0b000_00000000, 0⟩) = .idle ∧ decode (.command ⟨0b000_11111111, 0⟩) = .idle ∧
    decode (.command ⟨0b001_00111011, 0⟩) = .push 0x3B ∧ decode (.command ⟨0b001_00001010, 0⟩) = .push 0x0A ∧
    decode (.command ⟨0b010_00000000, dv1⟩) = .decode dv1 ∧ decode (.command ⟨0b011_00000000, 0⟩) = .reset ∧
    decode (.command ⟨0b100_00000000, 0⟩) = .rdstart ∧ decode (.command ⟨0b101_00000000, 0⟩) = .reservedOp5 ∧
    decode (.command ⟨0b110_00000000, 0⟩) = .reservedOp6 ∧ decode (.command ⟨0b111_10000001, 0⟩) = .reservedOp7 := by
  decide

/-- Byte 6 in bits 55..48, the code in its low nibble, any high nibble (R71, R72, R73). -/
theorem test_decode_frames :
    decode (.frame 0x00000000000000_30_000000000000) = .mtype0 0x00000000000000_30_000000000000 ∧
    decode (.frame 0x00000000000000_31_000000000000) = .mtype1 0x00000000000000_31_000000000000 ∧
    decode (.frame 0x00000000000000_F2_000000000000) = .mtype2 0x00000000000000_F2_000000000000 ∧
    decode (.frame 0x00000000000000_33_000000000000) = .mtype3 0x00000000000000_33_000000000000 ∧
    decode (.frame 0x00000000000000_04_000000000000) = .mtype4 0x00000000000000_04_000000000000 ∧
    decode (.frame 0x00000000000000_35_000000000000) = .mtype5 0x00000000000000_35_000000000000 ∧
    decode (.frame 0x00000000000000_36_000000000000) = .mtype6 0x00000000000000_36_000000000000 ∧
    decode (.frame 0x00000000000000_37_000000000000) = .mtype7 0x00000000000000_37_000000000000 ∧
    decode (.frame 0x00000000000000_88_000000000000) = .mtype8 0x00000000000000_88_000000000000 ∧
    decode (.frame 0x00000000000000_39_000000000000) = .mtype9 0x00000000000000_39_000000000000 ∧
    decode (.frame 0x00000000000000_3A_000000000000) = .mtype10 0x00000000000000_3A_000000000000 ∧
    decode (.frame dv1) = .mtype11 dv1 ∧ decode (.frame dv17) = .mtype11 dv17 ∧
    decode (.frame 0x00000000000000_3C_000000000000) = .mtype12 0x00000000000000_3C_000000000000 ∧
    decode (.frame 0x00000000000000_3D_000000000000) = .mtype13 0x00000000000000_3D_000000000000 ∧
    decode (.frame 0x00000000000000_3E_000000000000) = .mtype14 0x00000000000000_3E_000000000000 ∧
    decode (.frame 0x00000000000000_3F_000000000000) = .mtype15 0x00000000000000_3F_000000000000 := by decide

/-- Table words: commands in sixteen bits, byte 6 of a frame in eight; a command word of more than eleven bits is none. -/
theorem test_decodeTableWord :
    decodeTableWord 16 0x13B = some (.push 0x3B) ∧ decodeTableWord 16 0x500 = some .reservedOp5 ∧
    decodeTableWord 8 0x3B = some (.mtype11 (byte6 0x3B)) ∧ decodeTableWord 8 0x0F = some (.mtype15 (byte6 0x0F)) ∧
    decodeTableWord 16 0x800 = none ∧ decodeTableWord 24 0 = none := by decide

/-- `withFetchWord` runs its instruction in the very next step, from reset. -/
theorem test_withFetchWord :
    goes (step (State.reset.withFetchWord 16 0x400)) (fun t => t.rdActive && t.inputs == []) = true ∧
    goes (step (State.reset.withFetchWord 16 0x10D)) (fun t => t.prev == 0x0D) = true ∧
    reports (step (State.reset.withFetchWord 8 0x03)) (.unknownMode 3) 1 = true ∧
    refusal (step (State.reset.withFetchWord 16 0x600)) = some (.reservedOperation 6) := by decide +kernel

/-! ### The commands -/

/-- RV3: the fourteenth attempt exhausts a read with K = 1; one before it only counts (42_stream_reader R185). -/
theorem test_idle_exhausts :
    goes (exec .idle (reading 13)) (fun t => t.status == 4 && !t.rdActive && t.attempts == 0) = true ∧
    goes (exec .idle (reading 12)) (fun t => t.status == 0 && t.rdActive && t.attempts == 13) = true := by
  decide +kernel

/-- IDLE without a read is no attempt, and leaves the window (40_framer R108). -/
theorem test_idle_without_read :
    goes (exec .idle (win [1, 2] 2)) (fun t => t.status == 0 && t.attempts == 0 && window t == [1, 2]) = true := by
  decide +kernel

/-- FV13 at its last byte: the oldest byte is evicted and the head moves on. -/
theorem test_push_evicts :
    goes (exec (.push 0x4E) (win [0x40, 0x41, 0x42, 0x43, 0x44, 0x45, 0x46, 0x47, 0x48, 0x49, 0x4A, 0x4B, 0x4C, 0x4D] 0x4D))
      (fun t => t.whead == 1 && t.wcnt == 14 && t.prev == 0x4E && !t.frameValid &&
        window t == [0x41, 0x42, 0x43, 0x44, 0x45, 0x46, 0x47, 0x48, 0x49, 0x4A, 0x4B, 0x4C, 0x4D, 0x4E]) = true := by
  decide +kernel

/-- SV1 at its last byte: the frame and its Reading in one step. -/
theorem test_push_emits :
    goes (exec (.push 0x0A) (win (dvPay ++ [0x0D]) 0x0D))
      (fun t => t.frameValid && t.frameOut == dv1 && window t == [] && t.prev == 0x0A) = true ∧
    reads (exec (.push 0x0A) (win (dvPay ++ [0x0D]) 0x0D)) 0x800 [2, 2, 0, 123, -2, 0, 123, -2] = true := by
  decide +kernel

/-- DV2: five digits, NEG, every number of the Reading. -/
theorem test_decode_dv2 :
    reads (exec (.decode dv2) s0) 0x804 [2, 2, 0, -123, -2, 0, -123, -2] = true := by decide +kernel

/-- DV20: all thirteen flags. -/
theorem test_decode_all_flags :
    reads (exec (.decode dv20) s0) 0x1FFF [0, 0, 14, -1, -2, 5, -1, -2] = true := by decide +kernel

/-- FV11's RESET. -/
theorem test_reset :
    goes (exec .reset { win (pay ++ [0x0D]) 0x0D with rdActive := true, attempts := 13 })
      (fun t => window t == [] && t.prev == 0 && t.whead == 0 && !t.rdActive && t.attempts == 0 && t.status == 0) =
        true := by decide +kernel

/-- RDSTART while a read is active starts again at zero and keeps the window (RV7). -/
theorem test_rdstart_again :
    goes (exec .rdstart { win [1, 2] 2 with rdActive := true, attempts := 7 })
      (fun t => t.rdActive && t.attempts == 0 && window t == [1, 2] && t.prev == 2) = true := by decide +kernel

/-- The reserved operations (30_encoding R84). -/
theorem test_reserved :
    refusal (exec .reservedOp5 s0) = some (.reservedOperation 5) ∧
    refusal (exec .reservedOp6 s0) = some (.reservedOperation 6) ∧
    refusal (exec .reservedOp7 s0) = some (.reservedOperation 7) := by decide +kernel

/-! ### The measurement-type rows (95_test_vectors 3.2) -/

/-- DV25. -/
theorem test_mtype0 :
    reads (exec (.mtype0 0x0A0D303830303030343332313030) s0) 0x800 [7, 0, 2, 1234, -3, 1, 1234, -3] = true := by
  decide +kernel

/-- Diode, voltage slot 0, no flags: by hand from R136 to R143, with TC's table 2. -/
theorem test_mtype1 :
    reads (exec (.mtype1 0x0A0D303030303031343332313030) s0) 0 [2, 0, 0, 1234, -4, 0, 1234, -4] = true := by
  decide +kernel

/-- DV5: PERCENT decides against the mode's own table. -/
theorem test_mtype2 :
    reads (exec (.mtype2 dv5) s0) 8 [0, 0, 14, 10000, -2, 5, 10000, -2] = true := by decide +kernel

/-- DV4: MΩ to Ω. -/
theorem test_mtype3 :
    reads (exec (.mtype3 dv4) s0) 0x200 [3, 4, 7, 22000, -4, 2, 22000, 2] = true := by decide +kernel

/-- DV9: no table, no override. DV8: HZ gives it one. -/
theorem test_mtype4 :
    reports (exec (.mtype4 dv9) s0) (.noRangeTable 4) 2 = true ∧
    reads (exec (.mtype4 dv8) s0) 0x100 [1, 0, 11, 5000, -2, 4, 5000, -2] = true := by decide +kernel

/-- Continuity, resistance slot 1: by hand, kΩ to Ω. -/
theorem test_mtype5 :
    reads (exec (.mtype5 0x0A0D303030303035343332313031) s0) 0 [3, 1, 6, 1234, -4, 2, 1234, -1] = true := by
  decide +kernel

/-- DV23. -/
theorem test_mtype6 :
    reads (exec (.mtype6 0x0A0D303030303036303037343030) s0) 0 [4, 0, 8, 4700, -3, 3, 4700, -12] = true := by
  decide +kernel

/-- DV10a to DV10d: the four absent codes. -/
theorem test_mtype_absent :
    reports (exec (.mtype7 (byte6 0x37)) s0) (.unknownMode 7) 1 = true ∧
    reports (exec (.mtype8 (byte6 0x38)) s0) (.unknownMode 8) 1 = true ∧
    reports (exec (.mtype10 (byte6 0x3A)) s0) (.unknownMode 10) 1 = true ∧
    reports (exec (.mtype12 (byte6 0x3C)) s0) (.unknownMode 12) 1 = true := by decide +kernel

/-- Manual A, slot 0 of table 7: by hand, A is canonical. -/
theorem test_mtype9 :
    reads (exec (.mtype9 0x0A0D303030303039343332313030) s0) 0 [7, 0, 2, 1234, -3, 1, 1234, -3] = true := by
  decide +kernel

/-- DV1, and DV12: an absent slot. -/
theorem test_mtype11 :
    reads (exec (.mtype11 dv1) s0) 0x800 [2, 2, 0, 123, -2, 0, 123, -2] = true ∧
    reports (exec (.mtype11 dv12) s0) (.unknownRange 2 5) 3 = true := by decide +kernel

/-- DV24: µA to A. -/
theorem test_mtype13 :
    reads (exec (.mtype13 0x0A0D30383030303D353433323130) s0) 0x800 [5, 0, 4, 12345, -2, 1, 12345, -8] = true := by
  decide +kernel

/-- ADP has no table in TC (60_exceptions R203). -/
theorem test_mtype14 : reports (exec (.mtype14 (byte6 0x3E)) s0) (.noRangeTable 14) 2 = true := by decide +kernel

/-- DV26: mA to A. -/
theorem test_mtype15 :
    reads (exec (.mtype15 0x0A0D30343030303F363738393031) s0) 0x400 [6, 1, 3, 9876, -2, 1, 9876, -5] = true := by
  decide +kernel

/-- DV19′: the unmapped unit. -/
theorem test_invariant_fault :
    faults (exec (.decode dv19) (State.resetOf tcPrime)) (fun u t => u == 15 && t.status == 5 && !t.readingValid) =
      true := by decide +kernel

/-! ### Witnesses: a concrete state and operands that meet each statement's hypotheses -/

/-- A window of thirteen bytes that ends in CR, and one of fourteen (FV6's shape). -/
def w13 : State := win (dvPay ++ [0x0D]) 0x0D
def w14 : State := win (0x55 :: dvPay ++ [0x0D]) 0x0D

theorem witness_StepRunsTheNextCommand :
    ({ s0 with inputs := [⟨0x13B, 0⟩, ⟨0x000, 0⟩] } : State).inputs = ⟨0x13B, 0⟩ :: [⟨0x000, 0⟩] := rfl

theorem witness_StepRunsTheFramesRow :
    ({ s0 with inputs := [⟨0x2FF, dv1⟩] } : State).inputs = ⟨0x2FF, dv1⟩ :: [] ∧
    (0x2FF : Cmd).extractLsb' 8 3 = 2#3 := by decide

theorem witness_PlacedWordRunsNext :
    decodeTableWord 16 0x13B = some (.push 0x3B) ∧ decodeTableWord 8 0x0B = some (.mtype11 (byte6 0x0B)) := by decide

theorem witness_StepHoldsWithoutACommand : s0.inputs = [] := rfl

/-- Witness of `ResetCommand`, `IdleCommand` and `RdstartCommand`; the least core that meets it is `State.reset`. -/
theorem witness_admitted : s0.config.admitted = true ∧ State.reset.config.admitted = true := by decide +kernel

/-- Both branches: a window with room and a full one. -/
theorem witness_PushAccumulates :
    w13.config.admitted = true ∧ w14.config.admitted = true ∧
    StorageOk w13 ∧ StorageOk w14 ∧ (0x0D : Byte) ≠ 0x0A ∧ (window w13).length = 13 ∧ (window w14).length = 14 := by
  decide +kernel

/-- One byte short of a frame; and a full window after another byte than CR. -/
theorem witness_PushResynchronises :
    s0.config.admitted = true ∧
    (StorageOk (win (pay.take 11 ++ [0x0D]) 0x0D) ∧
      ¬ ((win (pay.take 11 ++ [0x0D]) 0x0D).prev = 0x0D ∧ 13 ≤ (window (win (pay.take 11 ++ [0x0D]) 0x0D)).length)) ∧
    (StorageOk (win (pay ++ [0x0D, 0x0C]) 0x0C) ∧
      ¬ ((win (pay ++ [0x0D, 0x0C]) 0x0C).prev = 0x0D ∧ 13 ≤ (window (win (pay ++ [0x0D, 0x0C]) 0x0C)).length)) := by
  decide +kernel

theorem witness_PushEmitsAndReads :
    ∀ s ∈ [w13, w14], StorageOk s ∧ s.config.admitted = true ∧ s.prev = 0x0D ∧ 13 ≤ (window s).length ∧
      frameBytes dv1 = lastN 13 (window s) ++ [0x0A] ∧
      s.config.mtRead (dv1.extractLsb' 48 4) = some ⟨.label 11, some 2⟩ ∧ TableChosen dv1 ⟨.label 11, some 2⟩ 2 ∧
      s.config.rtRead 2 (dv1.extractLsb' 0 3) = some ⟨.label 122, 0, 62⟩ ∧ normMap 0 = some (.volt, 0) := by
  decide +kernel

/-- The three clauses: the decode goes on, faults, is refused. -/
theorem witness_PushDecodesAsDecodeDoes :
    (∀ s ∈ [w13, w14], StorageOk s ∧ s.prev = 0x0D ∧ 13 ≤ (window s).length ∧
      frameBytes dv1 = lastN 13 (window s) ++ [0x0A] ∧ goes (exec (.decode dv1) s) (fun d => d.readingValid) = true) ∧
    (frameBytes dv19 = lastN 13 (window { win (frameBytes dv19 |>.take 13) 0x0D with config := tcPrime }) ++ [0x0A] ∧
      faults (exec (.decode dv19) { win (frameBytes dv19 |>.take 13) 0x0D with config := tcPrime })
        (fun u _ => u == 15) = true) ∧
    refusal (exec (.decode dv1) { w13 with config := tcShort }) = some .badConfiguration := by decide +kernel

/-- A window with room, a full one, and the clear. -/
theorem witness_PushWritesOneCell :
    StorageOk w13 ∧ StorageOk w14 ∧ goes (exec (.push 1) w13) (fun t => t.wmem[13] == 1 && t.wcnt == 14) = true ∧
    goes (exec (.push 1) w14) (fun t => t.wmem[0] == 1 && t.whead == 1 && t.wcnt == 14) = true ∧
    goes (exec (.push 0x0A) w14) (fun t => t.wmem[0] == 0x0A && t.whead == 1 && t.wcnt == 0) = true := by
  decide +kernel

theorem witness_PrevIsTheLastPushedByte :
    goes (exec (.push 0x0A) w13) (fun _ => true) = true ∧ goes (exec .idle w13) (fun t => t.prev == 0x0D) = true ∧
    goes (exec (.mtype11 dv1) w13) (fun t => t.prev == 0x0D) = true := by decide +kernel

theorem witness_FramerStorageRefinesTheSequence :
    StorageOk s0 ∧ StorageOk w13 ∧ StorageOk w14 ∧ StorageOk { w14 with whead := 13 } := by decide +kernel

/-- Good states at both ends of the completion condition, with an emission. -/
theorem witness_CompletionCondition :
    (∀ s ∈ [s0, w13, w14], StorageOk s ∧ WindowOk s) ∧ (framerPush 0x0A w13).2 = some dv1 ∧
    (framerPush 0x0A w14).2 = some dv1 ∧ (framerPush 0x0A s0).2 = none := by decide +kernel

theorem witness_PrevCanBeReadFromTheWindow :
    StorageOk w13 ∧ WindowOk w13 ∧ StorageOk w14 ∧ WindowOk w14 := by decide +kernel

/-- FV6: an emission after more than fourteen bytes. -/
theorem witness_FramerClosedForm :
    (framerPush 0x0A (pushAll (List.replicate 20 0x55 ++ dvPay ++ [0x0D]) (State.resetOf tc)).1).2 = some dv1 := by
  decide +kernel

theorem witness_TwelveBytesAndATerminatorMakeOneFrame : pay.length = 12 ∧ (0x0A : Byte) ∉ pay := by decide

theorem witness_NoFrameBeforeTheFourteenthPush :
    (pay ++ [0x0D]).length ≤ 13 ∧ none ∈ (pushAll (pay ++ [0x0D]) (State.resetOf tc)).2 := by decide +kernel

/-- Both clauses, the corrupted byte also at the other terminator byte. -/
theorem witness_ALostTerminatorLosesOneFrame :
    StorageOk s0 ∧ window s0 = [] ∧ pay.length = 12 ∧ dvPay.length = 12 ∧ (0x0A : Byte) ∉ pay ∧ (0x0A : Byte) ∉ dvPay ∧
    (0x8A : Byte) ≠ 0x0A ∧ (0x0D : Byte) ≠ 0x0A ∧ (0x0C : Byte) ≠ 0x0D ∧ (0x0A : Byte) ≠ 0x0D := by decide +kernel

theorem witness_OnlyPushAndResetWriteTheFramer :
    goes (exec .idle w14) (fun t => window t == window w14) = true ∧ goes (exec .rdstart w14) (fun _ => true) = true ∧
    goes (exec (.decode dv1) w14) (fun _ => true) = true := by decide +kernel

/-- WHEAD changes by an append to a full window, and by RESET. -/
theorem witness_StorageRegistersStayInRange :
    StorageOk { w14 with whead := 13 } ∧
    goes (exec (.push 1) { w14 with whead := 13 }) (fun t => t.whead == 0) = true ∧
    goes (exec .reset { w14 with whead := 13 }) (fun t => t.whead == 0) = true := by decide +kernel

/-- DECODE and a row; the table by the mode (DV1), by PERCENT (DV6) and by HZ (DV8). -/
theorem witness_DecodeReturnsTheReading :
    (RunsDecoder (.decode dv1) 11 dv1 ∧ RunsDecoder (.mtype11 dv1) 11 dv1 ∧ tc.admitted = true ∧
      tc.mtRead 11 = some ⟨.label 11, some 2⟩ ∧ TableChosen dv1 ⟨.label 11, some 2⟩ 2 ∧
      tc.rtRead 2 (dv1.extractLsb' 0 3) = some ⟨.label 122, 0, 62⟩ ∧ normMap 0 = some (.volt, 0)) ∧
    (RunsDecoder (.mtype11 dv6) 11 dv6 ∧ TableChosen dv6 ⟨.label 11, some 2⟩ 0 ∧
      tc.rtRead 0 (dv6.extractLsb' 0 3) = some ⟨.label 100, 14, 62⟩ ∧ normMap 14 = some (.percent, 0)) ∧
    (RunsDecoder (.mtype4 dv8) 4 dv8 ∧ tc.mtRead 4 = some ⟨.label 4, none⟩ ∧ TableChosen dv8 ⟨.label 4, none⟩ 1 ∧
      tc.rtRead 1 (dv8.extractLsb' 0 3) = some ⟨.label 110, 11, 62⟩ ∧ normMap 11 = some (.hertz, 0)) := by
  refine ⟨⟨?_, ?_, ?_, ?_, ?_, ?_, ?_⟩, ⟨?_, ?_, ?_, ?_⟩, ?_, ?_, ?_, ?_, ?_⟩ <;> decide +kernel

/-- Every row of RunsDecoder has an instruction, whose decode goes on under TC. -/
theorem witness_RunsDecoder_rows :
    ∀ m : Nibble, RunsDecoder (mtypeInstr m 0) m 0 ∧ goes (exec (mtypeInstr m 0) s0) (fun _ => true) = true := by
  decide +kernel

theorem witness_AbsentModeIsReported :
    RunsDecoder (.mtype7 (byte6 0x37)) 7 (byte6 0x37) ∧ RunsDecoder (.decode (byte6 0x37)) 7 (byte6 0x37) ∧
    s0.config.admitted = true ∧ s0.config.mtRead 7 = none := by
  refine ⟨?_, ?_, ?_, ?_⟩ <;> decide +kernel

theorem witness_CodesSevenEightTenTwelveAreUnknown :
    s0.config.admitted = true ∧ (byte6 0x37).extractLsb' 48 4 = 7#4 ∧ (byte6 0x38).extractLsb' 48 4 = 8#4 ∧
    (byte6 0x3A).extractLsb' 48 4 = 10#4 ∧ (byte6 0x3C).extractLsb' 48 4 = 12#4 := by decide +kernel

theorem witness_ModeWithoutTableIsReported :
    RunsDecoder (.decode dv9) 4 dv9 ∧ s0.config.admitted = true ∧ s0.config.mtRead 4 = some ⟨.label 4, none⟩ ∧
    dv9.getLsbD 59 = false ∧ dv9.getLsbD 80 = false := by decide +kernel

theorem witness_AbsentRangeIsReported :
    RunsDecoder (.mtype11 dv12) 11 dv12 ∧ s0.config.admitted = true ∧
    s0.config.mtRead 11 = some ⟨.label 11, some 2⟩ ∧ TableChosen dv12 ⟨.label 11, some 2⟩ 2 ∧
    s0.config.rtRead 2 (dv12.extractLsb' 0 3) = none := by decide +kernel

theorem witness_UnmappedUnitFaults :
    RunsDecoder (.decode dv19) 0 dv19 ∧ tcPrime.admitted = true ∧ tcPrime.mtRead 0 = some ⟨.label 0, some 7⟩ ∧
    TableChosen dv19 ⟨.label 0, some 7⟩ 7 ∧ tcPrime.rtRead 7 (dv19.extractLsb' 0 3) = some ⟨.label 171, 15, 61⟩ := by
  decide +kernel

/-- All four answers of a decode that goes on, and the fault (DV1, DV10a, DV9, DV12, DV19′). -/
theorem witness_TheFirstFailingCheckIsReported :
    RunsDecoder (.decode dv1) 11 dv1 ∧
    (s0.config.admitted = true ∧ goes (exec (.decode dv1) s0) (fun t => t.status == 0) = true ∧
      goes (exec (.decode (byte6 0x37)) s0) (fun t => t.status == 1) = true ∧
      goes (exec (.decode dv9) s0) (fun t => t.status == 2) = true ∧
      goes (exec (.decode dv12) s0) (fun t => t.status == 3) = true) ∧
    (tcPrime.admitted = true ∧ faults (exec (.decode dv19) (State.resetOf tcPrime)) (fun _ _ => true) = true) := by
  refine ⟨?_, ?_, ?_⟩ <;> decide +kernel

/-- The three clauses: a Reading, an absent slot, NO_RANGE_TABLE. -/
theorem witness_PercentThenHzThenMode :
    (goes (exec (.decode dv6) s0) (fun t => t.readingValid) = true ∧
      s0.config.mtRead (dv6.extractLsb' 48 4) = some ⟨.label 11, some 2⟩) ∧
    (reports (exec (.decode dv12) s0) (.unknownRange 2 5) 3 = true ∧
      s0.config.mtRead (dv12.extractLsb' 48 4) = some ⟨.label 11, some 2⟩) ∧
    (reports (exec (.decode dv9) s0) (.noRangeTable (dv9.extractLsb' 48 4)) 2 = true ∧
      s0.config.mtRead (dv9.extractLsb' 48 4) = some ⟨.label 4, none⟩) := by decide +kernel

/-- DV14, the largest base value, and the same frame with NEG set. -/
theorem witness_ReadingValuesFitTheirWidths :
    (match decodeAs tc 11 0x0A0D30383030303B3F3F3F3F3F30 with
      | .reading r => decide (r.valMant.toInt = 166665)
      | .error _ => false
      | .invariant _ => false) = true ∧
    (match decodeAs tc 11 0x0A0D30383030343B3F3F3F3F3F30 with
      | .reading r => decide (r.valMant.toInt = -166665)
      | .error _ => false
      | .invariant _ => false) = true := by decide +kernel

/-- DV16. -/
theorem witness_ZeroHasNoSign :
    RunsDecoder (.decode dv16) 11 dv16 ∧ goes (exec (.decode dv16) s0) (fun t => t.readingValid) = true ∧
    digitsValue dv16 = 0 ∧ dv16.getLsbD 58 = true := by decide +kernel

/-- DV1 and DV17: every ignored bit differs. -/
theorem witness_IgnoredFrameBitsHaveNoEffect : dv1 &&& fieldMask = dv17 &&& fieldMask ∧ dv1 ≠ dv17 := by
  decide +kernel

/-- DV1 and DV18: another terminator. -/
theorem witness_TerminatorIsNotChecked :
    (∀ k, k < 12 → frameByte dv1 k = frameByte dv18 k) ∧ dv1 ≠ dv18 := by decide +kernel

/-- The three clauses, from two states that differ in Framer and reader. -/
theorem witness_DecodeIsDeterminedByFrameAndRoms :
    (RunsDecoder (.decode dv1) 11 dv1 ∧ w13.config = (reading 3).config ∧
      goes (exec (.decode dv1) w13) (fun _ => true) = true) ∧
    faults (exec (.decode dv19) (State.resetOf tcPrime)) (fun _ _ => true) = true ∧
    refusal (exec (.decode dv1) (State.resetOf tcShort)) = some .badConfiguration := by decide +kernel

/-- DV1 with OL and UL set. -/
theorem witness_OverloadAndUnderrangeKeepTheValue :
    dv1 ||| BitVec.twoPow 112 56 ||| BitVec.twoPow 112 75 =
      0x0A0D30383830313B333231303032 ||| BitVec.twoPow 112 56 ||| BitVec.twoPow 112 75 ∧
    goes (exec (.decode dv1) s0) (fun t => t.readingValid) = true := by decide +kernel

theorem witness_InadmissibleConfigurationIsRefused :
    ({ w13 with config := tcShort, inputs := [⟨0x000, 0⟩] } : State).config.admitted = false ∧
    Instr.isReserved .idle = false ∧
    refusal (step { w13 with config := tcShort, inputs := [⟨0x000, 0⟩] }) = some .badConfiguration := by
  decide +kernel

/-- Every command row but the reserved ones is refused under an inadmissible configuration (92 D37). -/
theorem test_inadmissible_refuses :
    [Instr.idle, .push 1, .push 0x0A, .decode dv1, .reset, .rdstart, .mtype11 dv1].all
      (fun i => refusal (exec i { w13 with config := tcShort }) == some .badConfiguration) = true := by decide +kernel

/-- The last attempt by IDLE and by PUSH; the one before it; and the last attempt when it completes a frame. -/
theorem witness_ExhaustionExactlyAtTheBudget :
    goes (exec .idle (reading 13)) (fun t => t.status == 4) = true ∧
    goes (exec (.push 1) (reading 13)) (fun t => t.status == 4 && t.prev == 1) = true ∧
    goes (exec (.push 1) (reading 12)) (fun t => t.status == 0) = true ∧
    goes (exec (.push 0x0A) { w13 with rdActive := true, attempts := 13 })
      (fun t => t.status == 0 && t.frameValid && !t.rdActive) = true := by decide +kernel

/-- Each guard is met: a valid frame and a valid Reading, by a command that is not RESET; and RESET itself goes on. -/
theorem witness_ReaderNeverInfluencesTheFramer :
    goes (exec (.push 0x0A) w13) (fun t => t.frameValid && t.readingValid) = true ∧ Instr.push 0x0A ≠ .reset ∧
    goes (exec .reset (reading 3)) (fun t => window t == []) = true ∧
    goes (exec (.push 0x0A) { w13 with rdActive := true, attempts := 13 }) (fun t => t.status != 4) = true ∧
    goes (exec (.push 0x0A) w13) (fun t => t.status != 4) = true ∧
    goes (exec (.push 0x0A) { w13 with rdActive := true, attempts := 13 }) (fun t => t.frameOut == dv1) = true ∧
    goes (exec (.push 0x0A) w13) (fun t => t.frameOut == dv1) = true := by decide +kernel

/-- The least budget: thirteen silent commands and the fourteenth; and the last attempt alone, `n = 0`. -/
theorem witness_SilenceExhaustsTheRead :
    (reading 0).config.admitted = true ∧ (reading 13).rdActive = true ∧
    (reading 13).attempts + (0 + 1) = (reading 13).config.budget ∧
    ({ reading 13 with inputs := [⟨0x000, 0⟩] } : State).inputs = List.replicate (0 + 1) ⟨0x000, 0⟩ ++ [] ∧
    (reading 0).rdActive = true ∧ (reading 0).attempts + (13 + 1) = (reading 0).config.budget ∧
    ({ reading 0 with inputs := List.replicate 14 ⟨0x000, 0⟩ } : State).inputs =
      List.replicate (13 + 1) ⟨0x000, 0⟩ ++ [] := by decide +kernel

theorem witness_EveryReadEndsWithinItsBudget :
    tc.admitted = true ∧ tc.wf7 = true ∧ (reading 12).rdActive = true ∧ (reading 12).attempts < (reading 12).config.budget ∧
    ([⟨0x000, 0⟩, ⟨0x10A, 0⟩] : List Input).length = (reading 12).config.budget - (reading 12).attempts ∧
    (∀ x ∈ ([⟨0x000, 0⟩, ⟨0x10A, 0⟩] : List Input), (decodeCommand x).isAttempt = true) := by decide +kernel

theorem witness_EveryStepKeepsTheInvariant :
    CoreInv s0 ∧ CoreInv w13 ∧ CoreInv (reading 13) ∧ CoreInv { w14 with inputs := [⟨0x10A, 0⟩] } ∧
    goes (step { w14 with inputs := [⟨0x10A, 0⟩] }) (fun t => t.frameValid) = true := by
  refine ⟨?_, ?_, ?_, ?_, ?_⟩ <;> decide +kernel

theorem witness_ConfigurationIsNeverWritten :
    goes (exec (.push 0x0A) { w13 with inputs := [⟨0, 0⟩] }) (fun t => t.config == tc && t.inputs == [⟨0, 0⟩]) = true := by
  decide +kernel

/-- A case of each clause: both of IDLE's statuses are in `test_idle_exhausts`. -/
theorem witness_OutputsOfEachCommand :
    goes (exec .idle s0) (fun t => t.status == 0) = true ∧ goes (exec (.push 1) s0) (fun t => !t.frameValid) = true ∧
    goes (exec (.push 0x0A) w13) (fun t => t.frameValid && t.readingValid) = true ∧
    goes (exec (.decode dv12) s0) (fun t => t.status == 3) = true ∧ goes (exec .reset w13) (fun _ => true) = true ∧
    goes (exec .rdstart w13) (fun _ => true) = true := by decide +kernel

theorem witness_OnlyAPushedTerminatorEmits :
    goes (exec (.push 0x0A) w14) (fun t => t.frameValid) = true := by decide +kernel

theorem witness_MappedUnitsNeverFault : s0.config.wf7 = true := by decide +kernel

theorem witness_EveryCommandCompletes :
    Instr.isReserved (.push 0x0A) = false ∧ s0.config.admitted = true ∧ s0.config.wf7 = true := by decide +kernel

end Sys2Proof.Tests
end

/-! Proofs of the statements of 00_scope. -/

namespace Sys2Proof.Machine

/-- Settles O5: `step_waiting`, whose `setInputs rest s` is the state with the command consumed. -/
theorem stepRunsTheNextCommand : Obligations.StepRunsTheNextCommand := by
  intro s x rest hwaiting
  exact step_waiting s x rest hwaiting

end Sys2Proof.Machine

/-! Proofs of the statements of 10_state. -/

/-! ### The Framer's storage against the sequence (10_state R22, R24) -/

namespace Sys2Proof.Machine

/-- A terminator at the fourteenth byte empties the sequence and emits it (40_framer R103). -/
theorem framerSpec_complete (s : State) (b : Byte) (hc : Completes s b) :
    framerSpec (window s) s.prev b = ([], some (windowAppend (window s) b)) :=
  if_pos hc

/-- Any other LF empties the sequence in silence (40_framer R104). -/
theorem framerSpec_resync (s : State) (b : Byte) (hc : ¬ Completes s b) (hb : b = LF) :
    framerSpec (window s) s.prev b = ([], none) :=
  (if_neg hc).trans (if_pos hb)

/-- Any other byte is appended (40_framer R105). -/
theorem framerSpec_accumulate (w : List Byte) (prev b : Byte) (hb : b ≠ LF) :
    framerSpec w prev b = (windowAppend w b, none) :=
  (if_neg fun hc => hb hc.1).trans (if_neg hb)

/-- The window and the emission of a push are those of the sequence: the commuting diagram of one push. -/
theorem framerPush_refines (b : Byte) (s : State) (h : StorageOk s) :
    (window (framerPush b s).1, (framerPush b s).2.map frameBytes) = framerSpec (window s) s.prev b := by
  rcases framerPush_cases b s h with ⟨hc, e⟩ | ⟨hc, hb, e⟩ | ⟨hb, e⟩
  · have hlen := hc.2.2
    rw [e, framerSpec_complete s b hc]
    simp [frameBytes_packFrame _ hlen]
  · rw [e, framerSpec_resync s b hc hb]
    simp
  · rw [e, framerSpec_accumulate _ _ b hb]
    simp [window_winAppend b s h]

/-- Settles O21: the three branches of a push are those of the sequence (`framerPush_refines`), and the registers stay in
range. -/
theorem framerStorageRefinesTheSequence : Obligations.FramerStorageRefinesTheSequence := by
  intro s b h
  have hr := framerPush_refines b s h
  exact ⟨congrArg Prod.fst hr, congrArg Prod.snd hr, (framerPush_frame b s).1, framerPush_storageOk b s h⟩

/-- A push emits exactly when it completes a frame (40_framer R103). -/
theorem framerPush_emits_iff_completes (b : Byte) (s : State) (h : StorageOk s) :
    (∃ f, (framerPush b s).2 = some f) ↔ Completes s b := by
  rcases framerPush_cases b s h with ⟨hc, e⟩ | ⟨hc, -, e⟩ | ⟨hb, e⟩
  · exact iff_of_true ⟨_, congrArg Prod.snd e⟩ hc
  · exact iff_of_false (by simp [e]) hc
  · exact iff_of_false (by simp [e]) fun hc => hb hc.1

/-- The appended sequence has fourteen bytes exactly when there were at least thirteen. -/
theorem length_windowAppend_eq_14_iff (w : List Byte) (b : Byte) (h : w.length ≤ 14) :
    (windowAppend w b).length = 14 ↔ 13 ≤ w.length := by
  unfold windowAppend
  split <;> simp <;> omega

/-- Element 12 of a full appended sequence is the last byte before the append: the third realisation of PREV
(10_state R24). -/
theorem windowAppend_getElem?_12 (w : List Byte) (b : Byte) (h13 : 13 ≤ w.length) (h14 : w.length ≤ 14) :
    (windowAppend w b)[12]? = w.getLast? := by
  have hlast : w.length - 13 + 12 = w.length - 1 := by omega
  have hin : 12 < (lastN 13 w).length := by simp [lastN]; omega
  rw [windowAppend_lastN w b h13 h14, List.getElem?_append_left hin, lastN, List.getElem?_drop, hlast,
    List.getLast?_eq_getElem?]

/-- Settles O23: a push completes only with thirteen bytes in the window, whose last is then PREV. -/
theorem prevCanBeReadFromTheWindow : Obligations.PrevCanBeReadFromTheWindow := by
  rintro s b hs ⟨-, hprev, -⟩
  have h14 : (window s).length ≤ 14 := by simpa using hs.2
  rw [framerPush_emits_iff_completes b s hs, and_comm (a := List.length _ = 14)]
  refine and_congr_right fun _ => and_congr_left fun hfull => ?_
  have h13 := (length_windowAppend_eq_14_iff _ b h14).1 hfull
  have hne : window s ≠ [] := List.ne_nil_of_length_pos (by omega)
  rw [windowAppend_getElem?_12 _ b h13 h14, hprev.resolve_left hne, Option.some_inj]
  rfl

end Sys2Proof.Machine

/-! ### The widths of the Reading (10_state R40, R43) -/

namespace Sys2Proof

/-- The accumulated base value is the number of the five digits (41_decoder R138). -/
theorem baseValue_eq_digitsValue (f : Frame) : (baseValue f : Int) = Machine.digitsValue f := by
  simp only [baseValue, Machine.digitsValue, List.foldl, digit_eq]
  push_cast
  ring

/-- Every digit is a nibble at face value, so the base value is at most 15 · 11111 (41_decoder R138). -/
theorem baseValue_le (f : Frame) : baseValue f ≤ 166665 := by
  have hd (k : Nat) : (digit f k).toNat < 16 := (digit f k).isLt
  have h1 := hd 1
  have h2 := hd 2
  have h3 := hd 3
  have h4 := hd 4
  have h5 := hd 5
  simp only [baseValue, List.foldl]
  omega

/-- The signed mantissa is the number of the digits with the sign of NEG (41_decoder R140). -/
theorem signedMantissa_eq_signedDigits (f : Frame) : signedMantissa f = Machine.signedDigits f := by
  simp only [signedMantissa, Machine.signedDigits, baseValue_eq_digitsValue]
  rfl

/-- The range of the signed mantissa (10_state R43). -/
theorem signedMantissa_bounds (f : Frame) : -166665 ≤ signedMantissa f ∧ signedMantissa f ≤ 166665 := by
  have hb := baseValue_le f
  unfold signedMantissa
  split <;> omega

/-- The signed mantissa fits its nineteen bits (10_state R43). -/
theorem toInt_ofInt_signedMantissa (f : Frame) : (BitVec.ofInt 19 (signedMantissa f)).toInt = signedMantissa f := by
  have hb := signedMantissa_bounds f
  exact BitVec.toInt_ofInt_eq_self (by decide) (by omega) (by omega)

/-- The exponent offsets of the normalisation map are -9 to 6 (41_decoder R142). -/
theorem normMap_offset_bounds (u : Nibble) (cu : CanonUnit) (uexp : Int) (h : normMap u = some (cu, uexp)) :
    -9 ≤ uexp ∧ uexp ≤ 6 := by
  unfold normMap at h
  split at h <;> cases h <;> decide

/-- A scale exponent is in the range of six bits (41_decoder R151). -/
theorem scaleExp_bounds (e : BitVec 6) : -32 ≤ e.toInt ∧ e.toInt ≤ 31 := by
  have hlo := e.le_toInt
  have hhi := e.toInt_lt
  omega

/-- A normalised exponent fits its seven bits (10_state R43). -/
theorem toInt_ofInt_normExp (e : BitVec 6) (uexp : Int) (h : -9 ≤ uexp ∧ uexp ≤ 6) :
    (BitVec.ofInt 7 (e.toInt + uexp)).toInt = e.toInt + uexp := by
  have he := scaleExp_bounds e
  exact BitVec.toInt_ofInt_eq_self (by decide) (by omega) (by omega)

/-- Settles O39: the mantissa is bounded by five digits of 15, the exponents by six bits and the offsets of `normMap`. -/
theorem readingValuesFitTheirWidths : Obligations.ReadingValuesFitTheirWidths := by
  intro c m f r h
  obtain ⟨me, t, re, cu, uexp, -, -, -, hunit, rfl⟩ := (Machine.decodeAs_reading_iff c m f r).1 h
  have hoff := normMap_offset_bounds _ _ _ hunit
  have hexp := scaleExp_bounds re.scaleExp
  have hmant := signedMantissa_bounds f
  simp only [Machine.mkReading, toInt_ofInt_signedMantissa, toInt_ofInt_normExp _ _ hoff, true_and]
  exact ⟨signedMantissa_eq_signedDigits f, hmant.1, hmant.2, hexp.1, hexp.2, by omega, by omega,
    cu, uexp, hunit, rfl, rfl⟩

end Sys2Proof

/-! ### The configuration and the frame output (10_state R25, R31) -/

namespace Sys2Proof.Machine

/-- A PUSH that goes on leaves the configuration and the waiting commands alone, whether or not it emitted. -/
theorem execPush_hostSame (b : Byte) (s t : State) (h : execPush b s = .next t) : HostSame s t := by
  rcases (execPush_next b s t h).2 with ⟨-, rfl⟩ | ⟨f, -, -, rfl⟩
  · simp [HostSame, readerAttempt_frameRule, framerPush_frame]
  · simp [HostSame, readerAttempt_frameRule, present_frame, framerPush_frame]

/-- So does a step of the Decoder. -/
theorem decodeStep_hostSame (m : Nibble) (f : Frame) (s t : State) (h : decodeStep m f s = .next t) : HostSame s t := by
  obtain ⟨-, rfl, -⟩ := decodeStep_next m f s t h
  simp [HostSame, present_frame]

/-- Settles O52: no operation that the instructions share writes the configuration or the waiting commands. -/
theorem configurationIsNeverWritten : Obligations.ConfigurationIsNeverWritten := by
  intro i s t h
  rcases (exec_next_cases i s t h).2 with
    ⟨-, rfl⟩ | ⟨b, -, hpush⟩ | ⟨m, f, -, hdecode⟩ | ⟨-, rfl⟩ | ⟨-, rfl⟩
  · simp [readerAttempt_frameRule]
  · exact execPush_hostSame b s t hpush
  · exact decodeStep_hostSame m f s t hdecode
  · simp
  · simp

/-- In every state a push emits only on an LF after a CR (40_framer R103). -/
theorem framerPush_some_terminator (b : Byte) (s : State) (f : Frame) (h : (framerPush b s).2 = some f) :
    b = LF ∧ s.prev = CR := by
  unfold framerPush at h
  dsimp only at h
  split at h
  · rename_i hc
    exact ⟨hc.1, hc.2.1⟩
  · split at h <;> cases h

/-- A PUSH that goes on shows a frame exactly when its Framer emitted one (10_state R25). -/
theorem execPush_frameValid_iff (b : Byte) (s t : State) (h : execPush b s = .next t) :
    t.frameValid = true ↔ ∃ f, (framerPush b (clearOutputs s)).2 = some f := by
  rcases (execPush_next b s t h).2 with ⟨hnone, rfl⟩ | ⟨f, hsome, -, rfl⟩
  · simp [readerAttempt_frameRule, framerPush_silent b _ hnone, hnone]
  · simp [readerAttempt_frameRule, present_frame, (framerPush_emits b _ f hsome).1, hsome]

/-- A step of the Decoder shows no frame. -/
theorem decodeStep_frameValid (m : Nibble) (f : Frame) (s t : State) (h : decodeStep m f s = .next t) :
    t.frameValid = false := by
  obtain ⟨-, rfl, -⟩ := decodeStep_next m f s t h
  simp [present_frame]

/-- Settles O54: every other instruction leaves FRAME_VALID as `clearOutputs` set it, and a PUSH sets it only when the
Framer emits. -/
theorem onlyAPushedTerminatorEmits : Obligations.OnlyAPushedTerminatorEmits := by
  intro i s t h hvalid
  rcases (exec_next_cases i s t h).2 with
    ⟨-, rfl⟩ | ⟨b, rfl, hpush⟩ | ⟨m, f, -, hdecode⟩ | ⟨-, rfl⟩ | ⟨-, rfl⟩
  · simp [readerAttempt_frameRule] at hvalid
  · obtain ⟨f, hf⟩ := (execPush_frameValid_iff b s t hpush).1 hvalid
    obtain ⟨rfl, hprev⟩ := framerPush_some_terminator b _ f hf
    exact ⟨rfl, hprev⟩
  · simp [decodeStep_frameValid m f s t hdecode] at hvalid
  · simp at hvalid
  · simp at hvalid

end Sys2Proof.Machine

/-! ### Reset (10_state R45) -/

namespace Sys2Proof.Machine

@[simp] theorem window_resetOf (c : Config) : window (State.resetOf c) = [] := rfl

/-- Settles O9: each value is the one `State.resetOf` gives, and the window of no valid byte is empty. -/
theorem resetValues : Obligations.ResetValues := by
  intro c
  exact ⟨window_resetOf c, rfl, rfl, rfl, rfl, rfl, rfl, rfl, rfl, rfl⟩

/-- The storage registers of a reset core are in range. -/
theorem resetOf_storageOk (c : Config) : StorageOk (State.resetOf c) := by
  simp [StorageOk, State.resetOf]

/-- The window of a reset core is empty and PREV is 0x00 (40_framer R110). -/
theorem resetOf_windowOk (c : Config) : WindowOk (State.resetOf c) := by
  refine ⟨?_, .inl (window_resetOf c), fun _ => .inl rfl⟩
  simp

/-- No read is active in a reset core. -/
theorem resetOf_readerOk (c : Config) : ReaderOk (State.resetOf c) := by
  simp [ReaderOk, State.resetOf]

/-- A reset core shows no frame, no Reading and no error. -/
theorem resetOf_outputsOk (c : Config) : OutputsOk (State.resetOf c) := by
  simp [OutputsOk, State.resetOf, statusOk]

/-- Settles O10: the four parts of the invariant, one by one. -/
theorem resetMeetsTheInvariant : Obligations.ResetMeetsTheInvariant := by
  intro c
  exact ⟨resetOf_storageOk c, resetOf_windowOk c, resetOf_readerOk c, resetOf_outputsOk c⟩

end Sys2Proof.Machine

/-! Proofs of the statements of 20_memory. -/

/-! ### What writes the storage (20_memory R51, R58) -/

namespace Sys2Proof.Machine

/-- A step of the Decoder leaves the Framer alone (41_decoder R131). -/
theorem decodeStep_framerSame (m : Nibble) (f : Frame) (s t : State) (h : decodeStep m f s = .next t) :
    FramerSame s t := by
  obtain ⟨-, rfl, -⟩ := decodeStep_next m f s t h
  simp [FramerSame, present_frame]

/-- Settles O28: the instructions left are IDLE's attempt, a step of the Decoder and the start of a read, and none of these
operations writes the Framer. -/
theorem onlyPushAndResetWriteTheFramer : Obligations.OnlyPushAndResetWriteTheFramer := by
  intro i s t h hpush hreset
  rcases (exec_next_cases i s t h).2 with
    ⟨-, rfl⟩ | ⟨b, hi, -⟩ | ⟨m, f, -, hdecode⟩ | ⟨hi, -⟩ | ⟨-, rfl⟩
  · simp [FramerSame, readerAttempt_frameRule]
  · exact absurd hi (hpush b)
  · exact decodeStep_framerSame m f s t hdecode
  · exact absurd hi hreset
  · simp [FramerSame]

/-- After its push a PUSH that goes on leaves the Framer alone: neither the decode of an emitted frame nor the attempt
writes it (42_stream_reader R187). -/
theorem execPush_framerSame (b : Byte) (s t : State) (h : execPush b s = .next t) :
    FramerSame (framerPush b (clearOutputs s)).1 t := by
  rcases (execPush_next b s t h).2 with ⟨-, rfl⟩ | ⟨f, -, -, rfl⟩
  · simp [FramerSame, readerAttempt_frameRule]
  · simp [FramerSame, readerAttempt_frameRule, present_frame]

/-- `WinAppend` writes the cell after the window's last; in a full window that is the oldest byte's. -/
theorem winAppend_wmem_getElem (b : Byte) (s : State) (h : StorageOk s) (k : Nat) (hk : k < 14) :
    (winAppend b s).wmem[k] = if k = (s.whead.toNat + s.wcnt.toNat) % 14 then b else s.wmem[k] := by
  obtain ⟨hhead, -⟩ := h
  unfold winAppend winCap
  split
  · rename_i hfull
    have hcell : (s.whead.toNat + s.wcnt.toNat) % 14 = s.whead.toNat := by omega
    simp [hcell, Vector.getElem_setIfInBounds, eq_comm]
  · simp [Vector.getElem_setIfInBounds, eq_comm]

/-- `WinAppend` moves `WHEAD` on exactly when it evicts. -/
theorem winAppend_whead_toNat (b : Byte) (s : State) :
    (winAppend b s).whead.toNat = if s.wcnt.toNat = 14 then (s.whead.toNat + 1) % 14 else s.whead.toNat := by
  unfold winAppend winCap
  split
  · simp only [BitVec.toNat_ofNat]
    omega
  · rfl

/-- `WinAppend` counts up to fourteen. -/
theorem winAppend_wcnt_toNat (b : Byte) (s : State) (h : StorageOk s) :
    (winAppend b s).wcnt.toNat = min 14 (s.wcnt.toNat + 1) := by
  obtain ⟨-, hcnt⟩ := h
  unfold winAppend winCap
  split
  · simp only
    omega
  · simp only [toNat_count_succ]
    omega

/-- A push stores as `WinAppend` does, and an LF then clears the count, whether or not it emits (40_framer R103, R104). -/
theorem framerPush_storage (b : Byte) (s : State) (h : StorageOk s) :
    (framerPush b s).1.wmem = (winAppend b s).wmem ∧ (framerPush b s).1.whead = (winAppend b s).whead ∧
    (framerPush b s).1.wcnt = if b = LF then 0 else (winAppend b s).wcnt := by
  rcases framerPush_cases b s h with ⟨⟨hb, -⟩, e⟩ | ⟨-, hb, e⟩ | ⟨hb, e⟩
  · simp [e, if_pos hb]
  · simp [e, if_pos hb]
  · simp [e, if_neg hb]

/-- Settles O19: the storage after a PUSH is that of its push, which stores as `WinAppend` does. -/
theorem pushWritesOneCell : Obligations.PushWritesOneCell := by
  intro s b t hs h
  have hs' : StorageOk (clearOutputs s) := hs
  obtain ⟨hmem, hhead, hcnt, -, -⟩ := execPush_framerSame b s t h
  obtain ⟨hmem', hhead', hcnt'⟩ := framerPush_storage b (clearOutputs s) hs'
  refine ⟨fun k hk => ?_, ?_, ?_⟩
  · simp only [hmem, hmem']
    exact winAppend_wmem_getElem b (clearOutputs s) hs' k hk
  · rw [hhead, hhead']
    exact winAppend_whead_toNat b (clearOutputs s)
  · rw [hcnt, hcnt', apply_ite BitVec.toNat, winAppend_wcnt_toNat b _ hs']
    rfl

end Sys2Proof.Machine

/-! Proofs of the statements of 30_encoding. -/

/-! ### Decode and encode (30_encoding R80, R81, R74, R86) -/

namespace Sys2Proof

/-- A command row is well-formed with any operand (30_encoding R81). -/
theorem wellFormed_commandInstr (op : BitVec 3) (d : Byte) (f : Frame) : (commandInstr op d f).wellFormed = true := by
  unfold commandInstr
  split <;> rfl

/-- A measurement-type row is well-formed exactly on the frames of its code (30_encoding R74). -/
theorem wellFormed_mtypeInstr (m : Nibble) (f : Frame) : (mtypeInstr m f).wellFormed = (mtypeCode f == m) := by
  obtain ⟨⟨m, hm⟩⟩ := m
  interval_cases m <;> rfl

/-- The assembler's word of a command row: zero in the operands that `OP` ignores (30_encoding R86). -/
theorem encode_commandInstr (op : BitVec 3) (d : Byte) (f : Frame) :
    encode (commandInstr op d f) = .command ⟨cmdWord op (if op = 1 then d else 0), if op = 2 then f else 0⟩ := by
  obtain ⟨⟨op, hop⟩⟩ := op
  interval_cases op <;> rfl

/-- The frame of a well-formed measurement-type row selects that row again. -/
theorem decode_encode_mtypeInstr (m : Nibble) (f : Frame) (h : (mtypeInstr m f).wellFormed = true) :
    decode (encode (mtypeInstr m f)) = mtypeInstr m f := by
  rw [wellFormed_mtypeInstr, beq_iff_eq] at h
  rw [encode_mtypeInstr, ← h]
  rfl

/-- The reserved instructions are those of the three reserved operations (30_encoding R84). -/
theorem isReserved_cases (i : Instr) (h : i.isReserved = true) :
    i = .reservedOp5 ∨ i = .reservedOp6 ∨ i = .reservedOp7 := by
  unfold Instr.isReserved at h
  split at h
  · exact .inl rfl
  · exact .inr (.inl rfl)
  · exact .inr (.inr rfl)
  · cases h

/-- Settles O3: a command's word gives back its two fields (`decodeCommand_cmdWord`), a measurement-type row's frame its
code. -/
theorem decodeOfEncode : Obligations.DecodeOfEncode := by
  intro i hwf
  rcases Machine.instr_cases i with rfl | ⟨b, rfl⟩ | ⟨f, rfl⟩ | rfl | rfl | hr | ⟨m, f, rfl⟩
  · exact decodeCommand_cmdWord 0 0 0
  · exact decodeCommand_cmdWord 1 b 0
  · exact decodeCommand_cmdWord 2 0 f
  · exact decodeCommand_cmdWord 3 0 0
  · exact decodeCommand_cmdWord 4 0 0
  · rcases isReserved_cases i hr with rfl | rfl | rfl
    · exact decodeCommand_cmdWord 5 0 0
    · exact decodeCommand_cmdWord 6 0 0
    · exact decodeCommand_cmdWord 7 0 0
  · exact decode_encode_mtypeInstr m f hwf

/-- Settles O4: the word encoded back is the assembler's word of the row that `OP` names (`encode_commandInstr`). -/
theorem encodeOfDecode : Obligations.EncodeOfDecode := by
  refine ⟨fun c => ?_, fun f => encode_mtypeInstr (mtypeCode f) f, fun x => ?_⟩
  · cases c with
    | command x => exact wellFormed_commandInstr _ _ _
    | frame f => exact (wellFormed_mtypeInstr _ f).trans (beq_self_eq_true _)
  · refine ⟨_, encode_commandInstr (cmdOp x.cmd) (cmdData x.cmd) x.frameIn, cmdOp_cmdWord _ _, fun hpush => ?_,
      fun hdecode => if_pos hdecode⟩
    have hop : cmdOp x.cmd = 1 := hpush
    rw [if_pos hop, cmdWord_fields]

/-- `OP` is the quotient of the word's value by 0x100. -/
theorem cmdOp_eq_ofNat (c : Cmd) : cmdOp c = BitVec.ofNat 3 (c.toNat / 0x100) := by
  simp [cmdOp, BitVec.extractLsb', Nat.shiftRight_eq_div_pow]

/-- `DATA` is the remainder. -/
theorem cmdData_eq_ofNat (c : Cmd) : cmdData c = BitVec.ofNat 8 (c.toNat % 0x100) := by
  apply BitVec.eq_of_toNat_eq
  simp [cmdData]

/-- A word whose value lies in the range of an operation decodes to that operation's row (30_encoding R81). -/
theorem decodeCommand_of_range (op : Nat) (c : Cmd) (f : Frame) (hlo : 0x100 * op ≤ c.toNat)
    (hhi : c.toNat < 0x100 * op + 0x100) :
    decodeCommand ⟨c, f⟩ = commandInstr (BitVec.ofNat 3 op) (BitVec.ofNat 8 (c.toNat % 0x100)) f := by
  have hop : c.toNat / 0x100 = op := by omega
  rw [decodeCommand, cmdOp_eq_ofNat, cmdData_eq_ofNat, hop]

/-- Settles O2: the ranges of the word's value are those of `OP`, and each row is the one `commandInstr` gives. -/
theorem commandsDecodeByOpAlone : Obligations.CommandsDecodeByOpAlone := by
  intro cmd frameIn
  have hlt := cmd.isLt
  split_ifs with h0 h1 h2 h3 h4 h5 h6
  · exact decodeCommand_of_range 0 cmd frameIn (by omega) (by omega)
  · exact decodeCommand_of_range 1 cmd frameIn (by omega) (by omega)
  · exact decodeCommand_of_range 2 cmd frameIn (by omega) (by omega)
  · exact decodeCommand_of_range 3 cmd frameIn (by omega) (by omega)
  · exact decodeCommand_of_range 4 cmd frameIn (by omega) (by omega)
  · exact decodeCommand_of_range 5 cmd frameIn (by omega) (by omega)
  · exact decodeCommand_of_range 6 cmd frameIn (by omega) (by omega)
  · exact decodeCommand_of_range 7 cmd frameIn (by omega) (by omega)

/-- Settles O1: each command word is a `cmdWord` of its `OP` and `DATA`, and the code of DV1's frame is 11. -/
theorem tabledWordsDecode : Obligations.TabledWordsDecode :=
  ⟨decodeCommand_cmdWord 0 0 0, decodeCommand_cmdWord 1 0x3B 0, decodeCommand_cmdWord 2 0 _,
    decodeCommand_cmdWord 3 0 0, decodeCommand_cmdWord 4 0 0, decodeCommand_cmdWord 5 0 0, rfl⟩

end Sys2Proof

/-! ### Steps of encoded instructions (30_encoding R74, R84) -/

namespace Sys2Proof.Machine

/-- The command issued for a code does what the decoded instruction does (log 12). -/
theorem exec_decodeCommand_commandOf (c : Code) (s : State) :
    exec (decodeCommand (commandOf c)) s = exec (decode c) s := by
  cases c with
  | command x => rfl
  | frame f =>
    calc exec (decodeCommand ⟨cmdWord 2 0, f⟩) s
      _ = exec (.decode f) s := by rw [decodeCommand_cmdWord, commandInstr_2]
      _ = exec (mtypeInstr (mtypeCode f) f) s := (exec_mtypeInstr _ f s).symm

/-- Issuing a command and taking it leaves the state as it was. -/
theorem step_issueNext (x : Input) (s : State) : step (issueNext x s) = exec (decodeCommand x) s := rfl

/-- A table word decodes exactly when it is a code, to that code's instruction. -/
theorem decodeTableWord_eq_some_iff (nbits w : Nat) (i : Instr) :
    decodeTableWord nbits w = some i ↔ ∃ c, tableCode nbits w = .ok c ∧ decode c = i := by
  unfold decodeTableWord
  cases tableCode nbits w <;> simp

/-- Placing a table word that is a code issues the code's command. -/
theorem withFetchWord_of_code (s : State) (nbits w : Nat) (c : Code) (h : tableCode nbits w = .ok c) :
    s.withFetchWord nbits w = issueNext (commandOf c) s := by
  rw [State.withFetchWord, h]

/-- Settles O7: a word that decodes is issued as the command of its code, which the step takes. -/
theorem placedWordRunsNext : Obligations.PlacedWordRunsNext := by
  intro s nbits w i h
  obtain ⟨c, hcode, rfl⟩ := (decodeTableWord_eq_some_iff nbits w i).1 h
  rw [withFetchWord_of_code s nbits w c hcode, step_issueNext, exec_decodeCommand_commandOf]

/-- Settles O14: the arms of the reserved operations read nothing of the state. -/
theorem reservedCommandsAreRefused : Obligations.ReservedCommandsAreRefused :=
  fun _ => ⟨rfl, rfl, rfl⟩

/-- A step of the Decoder with an absent mode code raises UNKNOWN_MODE, whatever the frame (60_exceptions R202). -/
theorem decodeStep_absentMode (m : Nibble) (f : Frame) (s : State) (ha : s.config.admitted = true)
    (hm : s.config.mtRead m = none) :
    decodeStep m f s = .next (raise (.unknownMode m) (clearOutputs s)) := by
  rw [decodeStep_admitted m f s ha, decodeAs_absentMode _ m f hm]
  rfl

/-- An instruction that runs the Decoder with an absent mode code reports UNKNOWN_MODE. -/
theorem exec_absentMode (i : Instr) (m : Nibble) (f : Frame) (s : State) (hi : RunsDecoder i m f)
    (ha : s.config.admitted = true) (hm : s.config.mtRead m = none) :
    ∃ t, exec i s = .next t ∧ ReportsError (.unknownMode m) t ∧ t.status = 1 :=
  ⟨_, (exec_runsDecoder i m f s hi).trans (decodeStep_absentMode m f s ha hm), ⟨rfl, rfl, rfl, rfl⟩, rfl⟩

/-- Settles O32: WF1 makes the four codes absent (`mtRead_absent`), for their rows and for the frame's own code. -/
theorem codesSevenEightTenTwelveAreUnknown : Obligations.CodesSevenEightTenTwelveAreUnknown := by
  intro f s ha
  obtain ⟨h7, h8, h10, h12⟩ := mtRead_absent s.config ha
  refine ⟨exec_absentMode _ 7 f s (by simp [RunsDecoder]) ha h7,
    exec_absentMode _ 8 f s (by simp [RunsDecoder]) ha h8,
    exec_absentMode _ 10 f s (by simp [RunsDecoder]) ha h10,
    exec_absentMode _ 12 f s (by simp [RunsDecoder]) ha h12,
    fun hcode => exec_absentMode _ _ f s (.inl ⟨rfl, rfl⟩) ha ?_⟩
  rcases hcode with h | h | h | h <;> rwa [h]

end Sys2Proof.Machine

/-! ### The ignored frame bits (30_encoding R72, R73) -/

namespace Sys2Proof.Machine

/-- A frame bit that the mask keeps. -/
theorem frameBit_mask (f : Frame) (i n : Nat) (h : frameBit fieldMask i n = true) :
    frameBit (f &&& fieldMask) i n = frameBit f i n := by
  have hkept : fieldMask.getLsbD (8 * i + n) = true := h
  simp only [frameBit, BitVec.getLsbD_and, hkept, Bool.and_true]

/-- A frame field that the mask keeps whole. -/
theorem extract_mask (f : Frame) (i n : Nat) (h : fieldMask.extractLsb' i n = BitVec.allOnes n) :
    (f &&& fieldMask).extractLsb' i n = f.extractLsb' i n := by
  rw [BitVec.extractLsb'_and, h, BitVec.and_allOnes]

theorem rangeCode_mask (f : Frame) : rangeCode (f &&& fieldMask) = rangeCode f := by
  rw [rangeCode_eq, rangeCode_eq, extract_mask f 0 3 (by decide)]

theorem mtypeCode_mask (f : Frame) : mtypeCode (f &&& fieldMask) = mtypeCode f := by
  rw [mtypeCode_eq, mtypeCode_eq, extract_mask f 48 4 (by decide)]

/-- The mask keeps the five digit nibbles. -/
theorem digit_mask (f : Frame) (k : Nat) (h : k ∈ [1, 2, 3, 4, 5]) : digit (f &&& fieldMask) k = digit f k := by
  have hkept : ∀ k ∈ [1, 2, 3, 4, 5], fieldMask.extractLsb' (8 * k) 4 = BitVec.allOnes 4 := by decide
  rw [digit_eq, digit_eq, extract_mask f (8 * k) 4 (hkept k h)]

theorem baseValue_mask (f : Frame) : baseValue (f &&& fieldMask) = baseValue f :=
  List.foldl_ext _ _ _ fun base k hk => by rw [digit_mask f k hk]

theorem signedMantissa_mask (f : Frame) : signedMantissa (f &&& fieldMask) = signedMantissa f := by
  rw [signedMantissa, signedMantissa, flagNeg, flagNeg, frameBit_mask f 7 2 (by decide), baseValue_mask]

/-- The mask keeps the two bits that select a table (41_decoder R136). -/
theorem selectTable_mask (f : Frame) (me : MtEntry) : selectTable (f &&& fieldMask) me = selectTable f me := by
  rw [selectTable, selectTable, flagPercent, flagPercent, flagHz, flagHz, frameBit_mask f 7 3 (by decide),
    frameBit_mask f 10 0 (by decide)]

/-- The mask keeps the thirteen flags. -/
theorem flagsOf_mask (f : Frame) : flagsOf (f &&& fieldMask) = flagsOf f := by
  unfold flagsOf flagOl flagLowBat flagNeg flagPercent flagDelta flagMin flagMax flagUl flagHz flagAuto flagAc flagDc
    flagHold
  congr 1
  simp (disch := decide) only [frameBit_mask]

/-- A decode reads a frame only through its masked fields. -/
theorem decodeAs_mask (c : Config) (m : Nibble) (f : Frame) : decodeAs c m (f &&& fieldMask) = decodeAs c m f := by
  simp only [decodeAs, mkReading, selectTable_mask, rangeCode_mask, signedMantissa_mask, flagsOf_mask]

/-- DECODE of a frame is DECODE of its masked bits. -/
theorem exec_decode_mask (f : Frame) (s : State) : exec (.decode (f &&& fieldMask)) s = exec (.decode f) s := by
  simp only [exec, execDecode, decodeStep, mtypeCode_mask, decodeAs_mask]

/-- Settles O42: both frames decode as their common masked bits do (`exec_decode_mask`). -/
theorem ignoredFrameBitsHaveNoEffect : Obligations.IgnoredFrameBitsHaveNoEffect := by
  intro f g s h
  rw [← exec_decode_mask f, h, exec_decode_mask g]

end Sys2Proof.Machine

/-! Proofs of the statements of 40_framer. -/

/-! ### Commands that emit nothing (40_framer R104, R105, R108, R109) -/

namespace Sys2Proof.Machine

/-- Settles O11: RESET is `resetRegisters` on the cleared outputs. -/
theorem resetCommand : Obligations.ResetCommand := by
  intro s ha
  refine ⟨_, ifAdmitted_admitted s _ ha, ?_⟩
  simp [OutputsIdle, HostSame]

/-- From idle outputs, an attempt without a frame drives the reader and its report as 42_stream_reader R185 says. -/
theorem readerAttempt_none_attemptWithoutFrame (s : State) (h : OutputsIdle s) :
    AttemptWithoutFrame s (readerAttempt none s) := by
  obtain ⟨-, hstatus, -, herror⟩ := h
  rcases readerAttempt_cases none s with ⟨hr, e⟩ | ⟨-, ⟨g, hg⟩, -⟩ | ⟨hr, -, hn, e⟩ | ⟨hr, -, hn, e⟩
  · simp [AttemptWithoutFrame, e, hr, hstatus, herror]
  · cases hg
  · simp [AttemptWithoutFrame, e, hr, hn]
  · have hcount : s.attempts < s.config.budget → (s.attempts + 1) % 2 ^ s.config.attemptsWidth = s.attempts + 1 :=
      fun hlt => countAttempt_exact _ _ hlt
    simpa [AttemptWithoutFrame, e, hr, hn, hstatus, herror] using hcount

/-- An attempt without a frame never makes a Reading valid. -/
theorem readerAttempt_none_readingValid (s : State) (h : s.readingValid = false) :
    (readerAttempt none s).readingValid = false := by
  rcases readerAttempt_cases none s with ⟨-, e⟩ | ⟨-, -, e⟩ | ⟨-, -, -, e⟩ | ⟨-, -, -, e⟩ <;> simp [e, h]

/-- Settles O12: IDLE is one attempt without a frame on the cleared outputs. -/
theorem idleCommand : Obligations.IdleCommand := by
  intro s ha
  have hidle : OutputsIdle (clearOutputs s) := ⟨rfl, rfl, rfl, rfl⟩
  refine ⟨_, ifAdmitted_admitted s _ ha, ?_, ?_, ?_, readerAttempt_none_readingValid _ rfl,
    readerAttempt_none_attemptWithoutFrame (clearOutputs s) hidle⟩
  · simp [FramerSame, readerAttempt_frameRule]
  · simp [HostSame, readerAttempt_frameRule]
  · simp [readerAttempt_frameRule]

/-- A push that emits nothing leaves idle outputs idle. -/
theorem framerPush_outputsIdle (b : Byte) (s : State) (h : OutputsIdle s) (hnone : (framerPush b s).2 = none) :
    OutputsIdle (framerPush b s).1 := by
  simpa [OutputsIdle, framerPush_silent b s hnone, framerPush_frame] using h

/-- A PUSH that emits nothing goes on: the Framer's push and one attempt without a frame. -/
theorem exec_push_silent (b : Byte) (s : State) (ha : s.config.admitted = true)
    (hnone : (framerPush b (clearOutputs s)).2 = none) :
    ∃ t, exec (.push b) s = .next t ∧ FramerSame (framerPush b (clearOutputs s)).1 t ∧ t.frameValid = false ∧
      t.readingValid = false ∧ AttemptWithoutFrame s t ∧ HostSame s t := by
  have hexec := execPush_none b s ha hnone
  have hidle := framerPush_outputsIdle b (clearOutputs s) ⟨rfl, rfl, rfl, rfl⟩ hnone
  have ⟨hvalid, _, hreading, _⟩ := hidle
  refine ⟨_, hexec, execPush_framerSame b s _ hexec, ?_, readerAttempt_none_readingValid _ hreading, ?_,
    execPush_hostSame b s _ hexec⟩
  · simp [readerAttempt_frameRule, hvalid]
  · simpa [AttemptWithoutFrame, framerPush_frame] using readerAttempt_none_attemptWithoutFrame _ hidle

/-- Settles O15: the third branch of the push, which appends in silence. -/
theorem pushAccumulates : Obligations.PushAccumulates := by
  intro s b hs ha hb
  have hpush := framerPush_accumulate b (clearOutputs s) hb
  obtain ⟨t, hexec, ⟨-, -, -, hwindow, hprev⟩, hrest⟩ := exec_push_silent b s ha (by rw [hpush])
  rw [hpush] at hwindow hprev
  exact ⟨t, hexec, hwindow.trans (window_setPrev_winAppend b (clearOutputs s) hs), hprev, hrest⟩

/-- Settles O16: the second branch of the push, which clears in silence. -/
theorem pushResynchronises : Obligations.PushResynchronises := by
  intro s hs ha hshort
  have hpush := framerPush_resync (clearOutputs s) hs (mt (completes_LF_iff (clearOutputs s) hs).1 hshort)
  obtain ⟨t, hexec, ⟨-, -, -, hwindow, hprev⟩, hrest⟩ := exec_push_silent LF s ha (by rw [hpush])
  rw [hpush] at hwindow hprev
  exact ⟨t, hexec, hwindow, hprev, hrest⟩

end Sys2Proof.Machine

/-! ### PREV and the storage registers (40_framer R106, R114) -/

namespace Sys2Proof.Machine

/-- Settles O20: a PUSH leaves PREV as its push set it, and the other instructions leave the Framer alone. -/
theorem prevIsTheLastPushedByte : Obligations.PrevIsTheLastPushedByte := by
  refine ⟨fun b s t h => ?_, fun i s t h hpush hreset => ?_⟩
  · obtain ⟨-, -, -, -, hprev⟩ := execPush_framerSame b s t h
    exact hprev.trans (framerPush_frame b _).1
  · obtain ⟨-, -, -, -, hprev⟩ := onlyPushAndResetWriteTheFramer i s t h hpush hreset
    exact hprev

/-- What an instruction that goes on did to the Framer: a PUSH its push, RESET the reset values, any other nothing. -/
theorem exec_framer_cases (i : Instr) (s t : State) (h : exec i s = .next t) :
    (∃ b, i = .push b ∧ FramerSame (framerPush b (clearOutputs s)).1 t) ∨
    (i = .reset ∧ t = resetRegisters (clearOutputs s)) ∨ FramerSame s t := by
  by_cases hpush : ∃ b, i = .push b
  · obtain ⟨b, rfl⟩ := hpush
    exact .inl ⟨b, rfl, execPush_framerSame b s t h⟩
  · by_cases hreset : i = .reset
    · subst hreset
      have hnext := (ifAdmitted_next s _ t h).2
      exact .inr (.inl ⟨rfl, by simpa using hnext.symm⟩)
    · exact .inr (.inr (onlyPushAndResetWriteTheFramer i s t h (not_exists.1 hpush) hreset))

theorem storageOk_of_framerSame (s t : State) (h : FramerSame s t) (hs : StorageOk s) : StorageOk t := by
  obtain ⟨-, hhead, hcnt, -, -⟩ := h
  rwa [StorageOk, hhead, hcnt]

/-- Every instruction that goes on keeps the storage registers in range. -/
theorem exec_storageOk (i : Instr) (s t : State) (hs : StorageOk s) (h : exec i s = .next t) : StorageOk t := by
  rcases exec_framer_cases i s t h with ⟨b, -, hsame⟩ | ⟨-, rfl⟩ | hsame
  · exact storageOk_of_framerSame _ t hsame (framerPush_storageOk b (clearOutputs s) hs)
  · simp [StorageOk]
  · exact storageOk_of_framerSame s t hsame hs

/-- A push moves `WHEAD` only in a full window. -/
theorem framerPush_whead (b : Byte) (s : State) (h : StorageOk s) (hroom : s.wcnt.toNat ≠ 14) :
    (framerPush b s).1.whead = s.whead := by
  obtain ⟨-, hhead, -⟩ := framerPush_storage b s h
  exact hhead.trans (BitVec.eq_of_toNat_eq ((winAppend_whead_toNat b s).trans (if_neg hroom)))

/-- Settles O29: only a push writes WHEAD besides RESET, and it moves it only in a full window. -/
theorem storageRegistersStayInRange : Obligations.StorageRegistersStayInRange := by
  intro i s t hs h
  refine ⟨exec_storageOk i s t hs h, fun hmoved => ?_⟩
  rcases exec_framer_cases i s t h with ⟨b, hi, -, hhead, -⟩ | ⟨hi, -⟩ | ⟨-, hhead, -⟩
  · have hfull : s.wcnt.toNat = 14 :=
      Decidable.byContradiction fun hroom => hmoved (hhead.trans (framerPush_whead b (clearOutputs s) hs hroom))
    exact .inr ⟨⟨b, hi⟩, hfull⟩
  · exact .inl hi
  · exact absurd hhead hmoved

end Sys2Proof.Machine

/-! ### What a push emits (40_framer R103) -/

namespace Sys2Proof.Machine

/-- The window after a push: an LF clears it in every branch, any other byte is appended. -/
theorem window_framerPush (b : Byte) (s : State) (h : StorageOk s) :
    window (framerPush b s).1 = if b = LF then [] else windowAppend (window s) b := by
  rcases framerPush_cases b s h with ⟨⟨hb, -⟩, e⟩ | ⟨-, hb, e⟩ | ⟨hb, e⟩
  · rw [e, if_pos hb, window_emitFrame, window_winClear]
  · rw [e, if_pos hb, window_winClear]
  · rw [e, if_neg hb, window_setPrev_winAppend b s h]

/-- The bytes of an emitted frame are the appended window. -/
theorem framerPush_some_bytes (b : Byte) (s : State) (f : Frame) (h : StorageOk s) (hf : (framerPush b s).2 = some f) :
    frameBytes f = windowAppend (window s) b := by
  have hc := (framerPush_emits_iff_completes b s h).1 ⟨f, hf⟩
  have hr := congrArg Prod.snd (framerPush_refines b s h)
  rw [framerSpec_complete s b hc, hf] at hr
  exact Option.some.inj hr

theorem frameBytes_getElem? (f : Frame) (k : Nat) (h : k < 14) : (frameBytes f)[k]? = some (frameByte f k) := by
  simp [frameBytes, h]

/-- Every byte before the last is among the first thirteen. -/
theorem frameByte_mem_take (f : Frame) (k : Nat) (h : k < 13) : frameByte f k ∈ (frameBytes f).take 13 := by
  refine List.mem_of_getElem? (i := k) ?_
  rw [List.getElem?_take_of_lt h, frameBytes_getElem? f k (by omega)]

@[simp] theorem length_lastN (n : Nat) (w : List Byte) : (lastN n w).length = min n w.length := by
  simp only [lastN, List.length_drop]
  omega

/-- In a good state every emitted frame ends in CR LF and has no other LF. -/
theorem framerPush_some_terminated (b : Byte) (s : State) (f : Frame) (h : StorageOk s) (hw : WindowOk s)
    (hf : (framerPush b s).2 = some f) :
    frameByte f 12 = CR ∧ frameByte f 13 = LF ∧ LF ∉ (frameBytes f).take 13 := by
  obtain ⟨hnoLf, hlast, -⟩ := hw
  obtain ⟨rfl, hprev, hfull⟩ := (framerPush_emits_iff_completes b s h).1 ⟨f, hf⟩
  have h14 : (window s).length ≤ 14 := by simpa using h.2
  have h13 := (length_windowAppend_eq_14_iff _ LF h14).1 hfull
  have hne : window s ≠ [] := List.ne_nil_of_length_pos (by omega)
  have hbytes := framerPush_some_bytes LF s f h hf
  have hbody : (lastN 13 (window s)).length = 13 := (length_lastN 13 _).trans (Nat.min_eq_left h13)
  refine ⟨Option.some.inj ?_, Option.some.inj ?_, ?_⟩
  · rw [← frameBytes_getElem? f 12 (by decide), hbytes, windowAppend_getElem?_12 _ LF h13 h14,
      hlast.resolve_left hne, hprev]
  · rw [← frameBytes_getElem? f 13 (by decide), hbytes, windowAppend_lastN _ LF h13 h14,
      List.getElem?_append_right hbody.le, hbody]
    rfl
  · rw [hbytes, windowAppend_lastN _ LF h13 h14, List.take_left' hbody]
    exact fun hmem => hnoLf (List.mem_of_mem_drop hmem)

/-- Settles O22: emission is `Completes`, the frame is the appended window, and `WindowOk` places its CR and LF. -/
theorem completionCondition : Obligations.CompletionCondition := by
  intro s b hs hw
  refine ⟨framerPush_emits_iff_completes b s hs, fun f hf => ?_⟩
  have hempty := (window_framerPush b s hs).trans (if_pos (framerPush_some_terminator b s f hf).1)
  obtain ⟨hcr, hlf, hnoLf⟩ := framerPush_some_terminated b s f hs hw hf
  refine ⟨framerPush_some_bytes b s f hs hf, hcr, hlf, fun k hk (heq : _ = LF) => ?_, hempty⟩
  exact hnoLf (heq ▸ frameByte_mem_take f k hk)

end Sys2Proof.Machine

/-! ### The closed form (40_framer R111, R113) -/

namespace Sys2Proof.Machine

/-- The bytes since the last LF, one byte later. -/
theorem sinceLf_concat (bytes : List Byte) (b : Byte) :
    sinceLf (bytes ++ [b]) = if b = LF then [] else sinceLf bytes ++ [b] := by
  have h : sinceLf (bytes ++ [b]) = if decide (b ≠ LF) = true then sinceLf bytes ++ [b] else [] :=
    List.rtakeWhile_concat _ bytes b
  rw [h]
  by_cases hb : b = LF <;> simp [hb]

theorem sinceLf_suffix (bytes : List Byte) : sinceLf bytes <:+ bytes :=
  List.rtakeWhile_suffix (fun x : Byte => decide (x ≠ LF)) bytes

theorem sinceLf_eq_self (bytes : List Byte) (h : LF ∉ bytes) : sinceLf bytes = bytes :=
  List.rtakeWhile_eq_self_iff.2 fun _ hx => decide_eq_true fun e => h (e ▸ hx)

/-- Appending to the last fourteen bytes gives the last fourteen of the longer sequence. -/
theorem windowAppend_lastN_14 (w : List Byte) (b : Byte) : windowAppend (lastN 14 w) b = lastN 14 (w ++ [b]) := by
  unfold windowAppend
  rw [length_lastN]
  by_cases h : 14 ≤ w.length
  · have hdrop : w.length - 14 + 1 = w.length + 1 - 14 := by omega
    rw [if_pos (Nat.min_eq_left h)]
    simp only [lastN, List.drop_drop, List.length_append, List.length_singleton, hdrop]
    rw [List.drop_append_of_le_length (by omega)]
  · have hshort : min 14 w.length ≠ 14 := by omega
    have hkeep : w.length - 14 = 0 ∧ (w ++ [b]).length - 14 = 0 := by
      rw [List.length_append, List.length_singleton]
      omega
    simp only [if_neg hshort, lastN, hkeep, List.drop_zero]

/-- The last `n` elements of a long enough suffix are those of the whole. -/
theorem lastN_of_suffix (n : Nat) (w v : List Byte) (hsuffix : w <:+ v) (hn : n ≤ w.length) : lastN n w = lastN n v := by
  obtain ⟨u, rfl⟩ := hsuffix
  have hskip : (u ++ w).length - n = u.length + (w.length - n) := by
    rw [List.length_append]
    omega
  rw [lastN, lastN, hskip, List.drop_append]
  simp

theorem pushAll_append (xs ys : List Byte) (s : State) :
    pushAll (xs ++ ys) s =
      ((pushAll ys (pushAll xs s).1).1, (pushAll xs s).2 ++ (pushAll ys (pushAll xs s).1).2) := by
  induction xs generalizing s with
  | nil => rfl
  | cons x xs ih => simp [pushAll, ih]

/-- What a run of the Framer from reset keeps, byte by byte: storage in range, the window by 40_framer R111, PREV the last
byte pushed. -/
theorem pushAll_closedForm (c : Config) (bytes : List Byte) :
    StorageOk (pushAll bytes (State.resetOf c)).1 ∧
    window (pushAll bytes (State.resetOf c)).1 = lastN 14 (sinceLf bytes) ∧
    (pushAll bytes (State.resetOf c)).1.prev = bytes.getLast?.getD 0 := by
  induction bytes using List.reverseRecOn with
  | nil => exact ⟨resetOf_storageOk c, window_resetOf c, rfl⟩
  | append_singleton bytes b ih =>
    obtain ⟨hs, hwindow, -⟩ := ih
    rw [pushAll_append]
    simp only [pushAll]
    refine ⟨framerPush_storageOk b _ hs, ?_, by simp [framerPush_frame]⟩
    rw [window_framerPush b _ hs, hwindow, windowAppend_lastN_14, sinceLf_concat, apply_ite (lastN 14)]
    rfl

/-- Settles O24: `pushAll_closedForm` puts the window and PREV into the completion condition. -/
theorem framerClosedForm : Obligations.FramerClosedForm := by
  intro c bytes b
  obtain ⟨hs, hwindow, hprev⟩ := pushAll_closedForm c bytes
  have hemits : (∃ f, (framerPush b (pushAll bytes (State.resetOf c)).1).2 = some f) ↔
      b = LF ∧ bytes.getLast? = some CR ∧ 13 ≤ (sinceLf bytes).length := by
    have hcr : bytes.getLast?.getD 0 = CR ↔ bytes.getLast? = some CR := by
      cases bytes.getLast? <;> simp [CR]
    have hlen : (windowAppend (lastN 14 (sinceLf bytes)) b).length = 14 ↔ 13 ≤ (sinceLf bytes).length := by
      rw [length_windowAppend_eq_14_iff _ _ (by simp), length_lastN]
      omega
    rw [framerPush_emits_iff_completes b _ hs, Completes, hwindow, hprev, hcr, hlen]
  refine ⟨hwindow, hemits, fun f hf => ?_⟩
  obtain ⟨-, -, h13⟩ := hemits.1 ⟨f, hf⟩
  have hsuffix : sinceLf bytes ++ [b] <:+ bytes ++ [b] := by
    obtain ⟨u, hu⟩ := sinceLf_suffix bytes
    exact ⟨u, by rw [← List.append_assoc, hu]⟩
  calc frameBytes f = windowAppend (lastN 14 (sinceLf bytes)) b := hwindow ▸ framerPush_some_bytes b _ f hs hf
    _ = lastN 14 (sinceLf bytes ++ [b]) := windowAppend_lastN_14 _ b
    _ = lastN 14 (bytes ++ [b]) := lastN_of_suffix 14 _ _ hsuffix (by simpa using h13)

/-- Bytes that are not LF emit nothing, from any state (40_framer R105). -/
theorem pushAll_silent_of_no_lf (bytes : List Byte) (s : State) (h : LF ∉ bytes) :
    (pushAll bytes s).2 = List.replicate bytes.length none := by
  induction bytes generalizing s with
  | nil => rfl
  | cons b bytes ih =>
    obtain ⟨hb, hbytes⟩ : LF ≠ b ∧ LF ∉ bytes := by simpa using h
    simp [pushAll, framerPush_accumulate b s (Ne.symm hb), ih _ hbytes, List.replicate_succ]

/-- Settles O25: the thirteen bytes before the LF are silent, and the closed form says that the LF emits all fourteen. -/
theorem twelveBytesAndATerminatorMakeOneFrame : Obligations.TwelveBytesAndATerminatorMakeOneFrame := by
  intro c payload hlen hnoLf
  have hbody : LF ∉ payload ++ [CR] := by simpa [CR, LF] using hnoLf
  obtain ⟨-, hemits, hframe⟩ := framerClosedForm c (payload ++ [CR]) LF
  obtain ⟨f, hf⟩ := hemits.2 ⟨rfl, by simp [CR], by simp [sinceLf_eq_self _ hbody, hlen]⟩
  have hsplit : payload ++ [0x0D, 0x0A] = payload ++ [CR] ++ [LF] := by simp [CR, LF]
  refine ⟨f, ?_, ?_⟩
  · rw [hsplit, hframe f hf]
    simp [lastN, hlen]
  · rw [hsplit, pushAll_append, pushAll_silent_of_no_lf _ _ hbody]
    simp [pushAll, hf, hlen]

end Sys2Proof.Machine

/-! ### The invariant of the core (40_framer R110, 10_state R42, 42_stream_reader R185, 60_exceptions R210) -/

namespace Sys2Proof.Machine

theorem windowOk_of_framerSame (s t : State) (h : FramerSame s t) (hw : WindowOk s) : WindowOk t := by
  obtain ⟨-, -, -, hwindow, hprev⟩ := h
  rwa [WindowOk, hwindow, hprev]

/-- Every byte of an appended window was there or is the new one. -/
theorem mem_windowAppend (w : List Byte) (b x : Byte) (h : x ∈ windowAppend w b) : x ∈ w ∨ x = b := by
  unfold windowAppend at h
  split at h
  · exact (List.mem_append.1 h).imp List.mem_of_mem_drop List.mem_singleton.1
  · exact (List.mem_append.1 h).imp_right List.mem_singleton.1

theorem windowAppend_getLast? (w : List Byte) (b : Byte) : (windowAppend w b).getLast? = some b := by
  unfold windowAppend
  split <;> simp

/-- A push keeps the window free of LF and ending in PREV: an LF clears it, any other byte is appended (40_framer R110). -/
theorem framerPush_windowOk (b : Byte) (s : State) (h : StorageOk s) (hw : WindowOk s) :
    WindowOk (framerPush b s).1 := by
  obtain ⟨hnoLf, -, -⟩ := hw
  have hprev := (framerPush_frame b s).1
  have hwindow := window_framerPush b s h
  by_cases hb : b = LF
  · rw [if_pos hb] at hwindow
    exact ⟨by simp [hwindow], .inl hwindow, fun _ => .inr (hprev.trans hb)⟩
  · rw [if_neg hb] at hwindow
    have hlast := windowAppend_getLast? (window s) b
    rw [WindowOk, hwindow, hprev]
    refine ⟨fun hmem => ?_, .inr hlast, fun hempty => ?_⟩
    · exact (mem_windowAppend _ b LF hmem).elim hnoLf (Ne.symm hb)
    · simp [hempty] at hlast

/-- Every instruction that goes on keeps the window free of LF and ending in PREV. -/
theorem exec_windowOk (i : Instr) (s t : State) (hs : StorageOk s) (hw : WindowOk s) (h : exec i s = .next t) :
    WindowOk t := by
  rcases exec_framer_cases i s t h with ⟨b, -, hsame⟩ | ⟨-, rfl⟩ | hsame
  · exact windowOk_of_framerSame _ t hsame (framerPush_windowOk b (clearOutputs s) hs hw)
  · simp [WindowOk]
  · exact windowOk_of_framerSame s t hsame hw

theorem readerOk_of_readerSame (s t : State) (hr : ReaderSame s t) (hc : t.config = s.config) (h : ReaderOk s) :
    ReaderOk t := by
  obtain ⟨hactive, hattempts⟩ := hr
  rwa [ReaderOk, hactive, hattempts, hc]

/-- An attempt keeps an active read within its budget: the attempt that would spend it ends the read. -/
theorem readerAttempt_readerOk (f : Option Frame) (s : State) (h : ReaderOk s) : ReaderOk (readerAttempt f s) := by
  rcases readerAttempt_cases f s with ⟨-, e⟩ | ⟨-, -, e⟩ | ⟨-, -, -, e⟩ | ⟨hr, -, hn, e⟩ <;> rw [e]
  · exact h
  · simp [ReaderOk]
  · simp [ReaderOk]
  · have hlt : s.attempts < s.config.budget := by simpa [ReaderOk, hr] using h
    have hcount := countAttempt_exact s.config (s.attempts + 1) hlt
    simp only [ReaderOk, countAttempt_rdActive, countAttempt_attempts, countAttempt_config, hr, hcount]
    exact Nat.lt_of_le_of_ne hlt hn

/-- Neither a push nor the decode beside it touches the reader's registers. -/
theorem execPush_readerOk (b : Byte) (s t : State) (h : ReaderOk s) (hexec : execPush b s = .next t) : ReaderOk t := by
  rcases (execPush_next b s t hexec).2 with ⟨-, rfl⟩ | ⟨f, -, -, rfl⟩
  · refine readerAttempt_readerOk none _ (readerOk_of_readerSame s _ ?_ ?_ h)
    · simp [ReaderSame, framerPush_frame]
    · simp [framerPush_frame]
  · refine readerAttempt_readerOk (some f) _ (readerOk_of_readerSame s _ ?_ ?_ h)
    · simp [ReaderSame, present_frame, framerPush_frame]
    · simp [present_frame, framerPush_frame]

/-- Every instruction that goes on keeps an active read within its budget. -/
theorem exec_readerOk (i : Instr) (s t : State) (hr : ReaderOk s) (h : exec i s = .next t) : ReaderOk t := by
  rcases (exec_next_cases i s t h).2 with
    ⟨-, rfl⟩ | ⟨b, -, hpush⟩ | ⟨m, f, -, hdecode⟩ | ⟨-, rfl⟩ | ⟨-, rfl⟩
  · exact readerAttempt_readerOk none (clearOutputs s) hr
  · exact execPush_readerOk b s t hr hpush
  · obtain ⟨-, rfl, -⟩ := decodeStep_next m f s t hdecode
    refine readerOk_of_readerSame s _ ?_ ?_ hr <;> simp [ReaderSame, present_frame]
  · simp [ReaderOk]
  · have hbudget : 0 < s.config.budget := Nat.lt_of_lt_of_le (by decide) (budget_pos s.config)
    simpa [ReaderOk] using hbudget

theorem outputsOk_of_outputsIdle (s : State) (h : OutputsIdle s) : OutputsOk s := by
  obtain ⟨hvalid, hstatus, hreading, herror⟩ := h
  simp [OutputsOk, hvalid, hstatus, hreading, herror, statusOk, ErrorInfo.code]

/-- From idle outputs, an attempt without a frame reports at most READ_EXHAUSTED. -/
theorem readerAttempt_none_outputsOk (s : State) (h : OutputsIdle s) : OutputsOk (readerAttempt none s) := by
  rcases readerAttempt_cases none s with ⟨-, e⟩ | ⟨-, -, e⟩ | ⟨-, -, -, e⟩ | ⟨-, -, -, e⟩ <;> rw [e]
  · exact outputsOk_of_outputsIdle s h
  · exact outputsOk_of_outputsIdle (readerStop s) h
  · obtain ⟨hvalid, -, -, -⟩ := h
    simp [OutputsOk, hvalid, ErrorInfo.code]
  · exact outputsOk_of_outputsIdle (countAttempt _ s) h

/-- An attempt that has a frame leaves the ports consistent: it reports nothing of its own (60_exceptions R210). -/
theorem readerAttempt_some_outputsOk (f : Frame) (s : State) (h : OutputsOk s) : OutputsOk (readerAttempt (some f) s) := by
  obtain ⟨hstatus, hreading, herror⟩ := readerAttempt_some_ports f s
  simpa [OutputsOk, hstatus, hreading, herror, readerAttempt_frameRule] using h

/-- A decode without the invariant fault leaves the ports consistent beside a well-terminated frame: it reports OK or one of
its own three errors (60_exceptions R201). -/
theorem present_outputsOk (c : Config) (m : Nibble) (f : Frame) (s : State) (hfault : ∀ u, decodeAs c m f ≠ .invariant u)
    (hframe : s.frameValid = true →
      frameByte s.frameOut 12 = CR ∧ frameByte s.frameOut 13 = LF ∧ LF ∉ (frameBytes s.frameOut).take 13) :
    OutputsOk (present (decodeAs c m f) s) := by
  cases hd : decodeAs c m f with
  | reading r =>
    exact ⟨fun _ => rfl, rfl, by simp [present, statusOk], by simp [present, statusOk, ErrorInfo.code], hframe⟩
  | error e =>
    rcases decodeAs_error_code c m f e hd with rfl | rfl | ⟨t, rfl⟩ <;>
      exact ⟨by simp [present], rfl, by simp [present, ErrorInfo.code], by simp [present, ErrorInfo.code], hframe⟩
  | invariant u => exact absurd hd (hfault u)

/-- A PUSH that goes on leaves the ports consistent; that its frame is well terminated rests on the window's part of the
invariant. -/
theorem execPush_outputsOk (b : Byte) (s t : State) (hs : StorageOk s) (hw : WindowOk s) (h : execPush b s = .next t) :
    OutputsOk t := by
  rcases (execPush_next b s t h).2 with ⟨hnone, rfl⟩ | ⟨f, hsome, hfault, rfl⟩
  · exact readerAttempt_none_outputsOk _ (framerPush_outputsIdle b (clearOutputs s) ⟨rfl, rfl, rfl, rfl⟩ hnone)
  · refine readerAttempt_some_outputsOk f _ (present_outputsOk _ _ f _ hfault fun _ => ?_)
    rw [(framerPush_emits b _ f hsome).2]
    exact framerPush_some_terminated b (clearOutputs s) f hs hw hsome

/-- Every instruction that goes on leaves the output ports consistent. -/
theorem exec_outputsOk (i : Instr) (s t : State) (hs : StorageOk s) (hw : WindowOk s) (h : exec i s = .next t) :
    OutputsOk t := by
  rcases (exec_next_cases i s t h).2 with
    ⟨-, rfl⟩ | ⟨b, -, hpush⟩ | ⟨m, f, -, hdecode⟩ | ⟨-, rfl⟩ | ⟨-, rfl⟩
  · exact readerAttempt_none_outputsOk _ ⟨rfl, rfl, rfl, rfl⟩
  · exact execPush_outputsOk b s t hs hw hpush
  · obtain ⟨-, rfl, hfault⟩ := decodeStep_next m f s t hdecode
    exact present_outputsOk _ m f _ hfault (by simp)
  · exact outputsOk_of_outputsIdle _ ⟨rfl, rfl, rfl, rfl⟩
  · exact outputsOk_of_outputsIdle _ ⟨rfl, rfl, rfl, rfl⟩

/-- Every instruction that goes on keeps the invariant, part by part. -/
theorem exec_coreInv (i : Instr) (s t : State) (hinv : CoreInv s) (h : exec i s = .next t) : CoreInv t := by
  obtain ⟨hs, hw, hr, -⟩ := hinv
  exact ⟨exec_storageOk i s t hs h, exec_windowOk i s t hs hw h, exec_readerOk i s t hr h, exec_outputsOk i s t hs hw h⟩

/-- Settles O51: a step runs an instruction on a state that differs in the waiting commands only, or holds the state. -/
theorem everyStepKeepsTheInvariant : Obligations.EveryStepKeepsTheInvariant := by
  intro s t hinv h
  cases hin : s.inputs with
  | nil =>
    rw [step_empty s hin] at h
    cases h
    exact hinv
  | cons x rest =>
    rw [step_waiting s x rest hin] at h
    have hinv' : CoreInv (setInputs rest s) := hinv
    exact exec_coreInv (decodeCommand x) _ t hinv' h

end Sys2Proof.Machine

/-! Proofs of the statements of 41_decoder. -/

/-! ### The numbers of the Decoder (41_decoder R138, R142, R144) -/

namespace Sys2Proof

/-- Settles O38: the accumulation unfolded; the bound is `baseValue_le`. -/
theorem baseValueWeighsFiveNibbles : Obligations.BaseValueWeighsFiveNibbles := by
  intro f
  refine ⟨?_, baseValue_le f⟩
  simp only [baseValue, List.foldl]
  ring

/-- Settles O41: the table of `normMap`, code by code. -/
theorem normalisationMap : Obligations.NormalisationMap :=
  ⟨rfl, rfl, rfl⟩

/-- Unit code 15 is the only unmapped one (41_decoder R144). -/
theorem normMap_eq_none_iff (u : Nibble) : normMap u = none ↔ u = 15#4 := by
  revert u
  decide

/-- Every slot of a configuration that passes WF7 has a mapped unit (41_decoder R155). -/
theorem normMap_ne_none_of_wf7 (c : Config) (t : Nibble) (r : BitVec 3) (re : RangeEntry) (h7 : c.wf7 = true)
    (hre : c.rtRead t r = some re) : normMap re.unit ≠ none := by
  obtain ⟨slots, hslots, hbind⟩ := Option.bind_eq_some_iff.1 hre
  obtain ⟨w, hw, hentry⟩ := Option.bind_eq_some_iff.1 hbind
  have hword := List.all_eq_true.1 (List.all_eq_true.1 h7 slots (List.mem_of_getElem? hslots)) w (List.mem_of_getElem? hw)
  unfold RtWord.entry at hentry
  split at hentry
  · rename_i hpresent
    cases hentry
    intro hnone
    simp [hpresent, (normMap_eq_none_iff w.unit).1 hnone] at hword
  · cases hentry

end Sys2Proof

/-! ### What a decode answers (41_decoder R131, 60_exceptions R209) -/

namespace Sys2Proof.Machine

/-- The record of a successful decode holds the values that the rules give, none cut by its width (41_decoder R131, R140,
R143). -/
theorem mkReading_readingIs (m : Nibble) (f : Frame) (me : MtEntry) (t : Nibble) (re : RangeEntry) (cu : CanonUnit)
    (uexp : Int) (hunit : normMap re.unit = some (cu, uexp)) :
    ReadingIs (mkReading m f me t re cu uexp) f m me t re cu uexp := by
  have hmant : (BitVec.ofInt 19 (signedMantissa f)).toInt = signedDigits f :=
    (toInt_ofInt_signedMantissa f).trans (signedMantissa_eq_signedDigits f)
  have hexp := toInt_ofInt_normExp re.scaleExp uexp (normMap_offset_bounds _ _ _ hunit)
  exact ⟨flagsOf_copied f, rfl, rfl, rfl, rangeCode_eq f, rfl, rfl, hmant, rfl, rfl, hmant, hexp⟩

/-- Whatever Reading a decode answers is the record of a present mode, a chosen table and a present slot. -/
theorem decodeAs_reading_readingIs (c : Config) (m : Nibble) (f : Frame) (r : Reading) (h : decodeAs c m f = .reading r) :
    ∃ me tb re cu uexp, c.mtRead m = some me ∧ TableChosen f me tb ∧ ReadingIs r f m me tb re cu uexp := by
  obtain ⟨me, tb, re, cu, uexp, hme, htb, -, hunit, rfl⟩ := (decodeAs_reading_iff c m f r).1 h
  exact ⟨me, tb, re, cu, uexp, hme, (selectTable_some_iff f me tb).1 htb, mkReading_readingIs m f me tb re cu uexp hunit⟩

/-- A decode answers an error exactly when one of its first three checks fails, in their order. -/
theorem decodeAs_error_iff (c : Config) (m : Nibble) (f : Frame) (e : ErrorInfo) :
    decodeAs c m f = .error e ↔
      (c.mtRead m = none ∧ e = .unknownMode m) ∨
      (∃ me, c.mtRead m = some me ∧ selectTable f me = none ∧ e = .noRangeTable m) ∨
      (∃ me tb, c.mtRead m = some me ∧ selectTable f me = some tb ∧ c.rtRead tb (rangeCode f) = none ∧
        e = .unknownRange tb (rangeCode f)) := by
  constructor
  · intro h
    cases hme : c.mtRead m with
    | none =>
      rw [decodeAs_absentMode c m f hme] at h
      cases h
      exact .inl ⟨rfl, rfl⟩
    | some me =>
      cases htb : selectTable f me with
      | none =>
        rw [decodeAs_noTable c m f me hme htb] at h
        cases h
        exact .inr (.inl ⟨me, rfl, htb, rfl⟩)
      | some tb =>
        cases hre : c.rtRead tb (rangeCode f) with
        | none =>
          rw [decodeAs_absentRange c m f me tb hme htb hre] at h
          cases h
          exact .inr (.inr ⟨me, tb, rfl, htb, hre, rfl⟩)
        | some re =>
          simp only [decodeAs, hme, htb, hre] at h
          split at h <;> cases h
  · rintro (⟨hme, rfl⟩ | ⟨me, hme, htb, rfl⟩ | ⟨me, tb, hme, htb, hre, rfl⟩)
    · exact decodeAs_absentMode c m f hme
    · exact decodeAs_noTable c m f me hme htb
    · exact decodeAs_absentRange c m f me tb hme htb hre

/-- Under WF7 no decode answers the invariant fault. -/
theorem decodeAs_ne_invariant_of_wf7 (c : Config) (m : Nibble) (f : Frame) (u : Nibble) (h7 : c.wf7 = true) :
    decodeAs c m f ≠ .invariant u := by
  intro h
  obtain ⟨me, tb, re, -, -, hre, hnone, -⟩ := (decodeAs_invariant_iff c m f u).1 h
  exact normMap_ne_none_of_wf7 c tb _ re h7 hre hnone

end Sys2Proof.Machine

/-! ### What a step of the Decoder does (41_decoder R131, R134) -/

namespace Sys2Proof.Machine

/-- Only the invariant result concludes in a fault (60_exceptions R205). -/
theorem conclude_fault (r : DecodeResult) (s : State) (x : Fault) (h : conclude r s = .fault x) :
    ∃ u, r = .invariant u ∧ x = .invariant u s := by
  cases r with
  | reading rd => simp at h
  | error e => simp at h
  | invariant u => exact ⟨u, rfl, by simpa using h.symm⟩

theorem conclude_ne_refused (r : DecodeResult) (s : State) (x : Refusal) : conclude r s ≠ .refused x := by
  cases r <;> simp

/-- A command's outcome is a fault only under an admitted configuration, as its outcome says. -/
theorem ifAdmitted_fault (s : State) (o : Host.Outcome State Fault Refusal) (x : Fault) (h : ifAdmitted s o = .fault x) :
    s.config.admitted = true ∧ o = .fault x := by
  cases ha : s.config.admitted with
  | true => exact ⟨rfl, by simpa [ha] using h⟩
  | false => simp [ha] at h

/-- Without the invariant result a step of the Decoder goes on, its result on the ports. -/
theorem decodeStep_goesOn (m : Nibble) (f : Frame) (s : State) (ha : s.config.admitted = true)
    (hu : ∀ u, decodeAs s.config m f ≠ .invariant u) :
    decodeStep m f s = .next (present (decodeAs s.config m f) (clearOutputs s)) := by
  rw [decodeStep_admitted m f s ha]
  cases hd : decodeAs s.config m f with
  | reading r => rfl
  | error e => rfl
  | invariant u => exact absurd hd (hu u)

/-- A step of the Decoder faults exactly on the invariant result. -/
theorem decodeStep_fault_iff (m : Nibble) (f : Frame) (s : State) (x : Fault) :
    decodeStep m f s = .fault x ↔ s.config.admitted = true ∧
      ∃ u, decodeAs s.config m f = .invariant u ∧ x = .invariant u (raise (.invariant u) (clearOutputs s)) := by
  constructor
  · intro h
    obtain ⟨ha, hc⟩ := ifAdmitted_fault s _ x h
    obtain ⟨u, hd, rfl⟩ := conclude_fault _ _ x hc
    exact ⟨ha, u, hd, by rw [hd]; rfl⟩
  · rintro ⟨ha, u, hd, rfl⟩
    rw [decodeStep_admitted m f s ha, hd]
    rfl

/-- A step of the Decoder is refused exactly under an inadmissible configuration (92 D37). -/
theorem decodeStep_refused_iff (m : Nibble) (f : Frame) (s : State) (x : Refusal) :
    decodeStep m f s = .refused x ↔ s.config.admitted = false ∧ x = .badConfiguration := by
  cases ha : s.config.admitted with
  | true => simp [decodeStep_admitted m f s ha, conclude_ne_refused]
  | false => simp [decodeStep, ha, eq_comm]

/-- Driving the Decoder's ports touches neither Framer, reader, configuration nor waiting commands. -/
theorem present_clearOutputs_same (r : DecodeResult) (s : State) :
    FramerSame s (present r (clearOutputs s)) ∧ ReaderSame s (present r (clearOutputs s)) ∧
      HostSame s (present r (clearOutputs s)) := by
  simp [FramerSame, ReaderSame, HostSame, present_frame]

/-- The Decoder's ports are a function of its result (41_decoder R134). -/
theorem present_ports (r : DecodeResult) (s s' : State) :
    (present r (clearOutputs s')).status = (present r (clearOutputs s)).status ∧
    (present r (clearOutputs s')).errorInfo = (present r (clearOutputs s)).errorInfo ∧
    (present r (clearOutputs s')).readingValid = (present r (clearOutputs s)).readingValid ∧
    ((present r (clearOutputs s)).readingValid = true →
      (present r (clearOutputs s')).reading = (present r (clearOutputs s)).reading) := by
  cases r <;> simp [present]

/-- A Reading on the ports is the one the decode answered. -/
theorem decodeStep_next_reading (m : Nibble) (f : Frame) (s t : State) (h : decodeStep m f s = .next t)
    (hvalid : t.readingValid = true) : decodeAs s.config m f = .reading t.reading := by
  obtain ⟨-, rfl, -⟩ := decodeStep_next m f s t h
  cases hd : decodeAs s.config m f with
  | reading r => rfl
  | error e => simp [hd, present] at hvalid
  | invariant u => simp [hd, present] at hvalid

/-- The error term of a step of the Decoder that goes on is the one the decode answered. -/
theorem decodeStep_next_errorInfo_iff (m : Nibble) (f : Frame) (s t : State) (e : ErrorInfo)
    (h : decodeStep m f s = .next t) : t.errorInfo = some e ↔ decodeAs s.config m f = .error e := by
  obtain ⟨-, rfl, hu⟩ := decodeStep_next m f s t h
  cases hd : decodeAs s.config m f with
  | reading r => simp [present]
  | error e' => simp [present]
  | invariant u => exact absurd hd (hu u)

/-- Settles O30: the five checks succeed, so the step shows the record of `mkReading_readingIs`. -/
theorem decodeReturnsTheReading : Obligations.DecodeReturnsTheReading := by
  intro i m f s me tb re cu uexp hi ha hme htb hre hunit
  rw [← rangeCode_eq] at hre
  have hd : decodeAs s.config m f = .reading (mkReading m f me tb re cu uexp) :=
    (decodeAs_reading_iff _ m f _).2 ⟨me, tb, re, cu, uexp, hme, (selectTable_some_iff f me tb).2 htb, hre, hunit, rfl⟩
  have hstep := decodeStep_goesOn m f s ha (by simp [hd])
  rw [hd] at hstep
  exact ⟨_, (exec_runsDecoder i m f s hi).trans hstep, rfl, rfl, rfl, mkReading_readingIs m f me tb re cu uexp hunit, rfl,
    present_clearOutputs_same _ s⟩

/-- Settles O31: the first check fails whatever the flags, and raising an error touches only the ports. -/
theorem absentModeIsReported : Obligations.AbsentModeIsReported := by
  intro i m f s hi ha hm
  exact ⟨_, (exec_runsDecoder i m f s hi).trans (decodeStep_absentMode m f s ha hm), ⟨rfl, rfl, rfl, rfl⟩, rfl,
    present_clearOutputs_same (.error (.unknownMode m)) s⟩

/-- Settles O35: unit code 15 is unmapped, so the last check fails and the fault carries the raised state. -/
theorem unmappedUnitFaults : Obligations.UnmappedUnitFaults := by
  intro i m f s me tb re hi ha hme htb hre hunit
  rw [← rangeCode_eq] at hre
  have hd : decodeAs s.config m f = .invariant re.unit :=
    (decodeAs_invariant_iff _ m f _).2
      ⟨me, tb, re, hme, (selectTable_some_iff f me tb).2 htb, hre, (normMap_eq_none_iff _).2 hunit, rfl⟩
  have hstep := (decodeStep_fault_iff m f s _).2 ⟨ha, re.unit, hd, rfl⟩
  exact ⟨_, (exec_runsDecoder i m f s hi).trans hstep, ⟨rfl, rfl, rfl, rfl⟩, rfl,
    present_clearOutputs_same (.invariant re.unit) s⟩

/-- Settles O37: the ports show the decode's answer, whose table is the one `selectTable` chose. -/
theorem percentThenHzThenMode : Obligations.PercentThenHzThenMode := by
  intro f s t me h hme
  have hstep : decodeStep (mtypeCode f) f s = .next t := h
  rw [mtypeCode_eq] at hstep
  refine ⟨fun hvalid => ?_, fun tb r herror => ?_, ?_⟩
  · obtain ⟨me', tb, re, cu, uexp, hme', htb, hr⟩ :=
      decodeAs_reading_readingIs _ _ f _ (decodeStep_next_reading _ f s t hstep hvalid)
    obtain rfl : me = me' := Option.some_inj.1 (hme.symm.trans hme')
    obtain ⟨-, hmode, hlabel, rfl, -⟩ := hr
    exact ⟨hmode, hlabel, htb⟩
  · rcases (decodeAs_error_iff _ _ f _).1 ((decodeStep_next_errorInfo_iff _ f s t _ hstep).1 herror) with
      ⟨-, e⟩ | ⟨-, -, -, e⟩ | ⟨me', tb', hme', htb, -, e⟩
    · cases e
    · cases e
    · cases e
      obtain rfl : me = me' := Option.some_inj.1 (hme.symm.trans hme')
      exact ⟨(selectTable_some_iff f me tb).1 htb, rangeCode_eq f⟩
  · rw [decodeStep_next_errorInfo_iff _ f s t _ hstep, decodeAs_error_iff, ← selectTable_none_iff]
    simp [hme]

/-- Settles O40: the mantissa is the signed value of the digits, and minus zero is zero. -/
theorem zeroHasNoSign : Obligations.ZeroHasNoSign := by
  intro i m f s t hi h hvalid hzero hneg
  rw [exec_runsDecoder i m f s hi] at h
  obtain ⟨me, tb, re, cu, uexp, -, -, hr⟩ :=
    decodeAs_reading_readingIs _ m f _ (decodeStep_next_reading m f s t h hvalid)
  obtain ⟨⟨-, -, hflag, -⟩, -, -, -, -, -, -, hmant, -⟩ := hr
  refine ⟨BitVec.eq_of_toInt_eq ?_, hflag.trans hneg⟩
  rw [hmant, signedDigits, hzero]
  simp

/-- Settles O44: the result of a decode reads the configuration and the frame only, and it alone fixes the outcome. -/
theorem decodeIsDeterminedByFrameAndRoms : Obligations.DecodeIsDeterminedByFrameAndRoms := by
  intro i m f s s' hi hconfig
  simp only [exec_runsDecoder i m f _ hi]
  refine ⟨fun t h => ?_, fun u t h => ?_, fun r h => ?_⟩
  · obtain ⟨ha, rfl, hu⟩ := decodeStep_next m f s t h
    rw [hconfig] at ha hu ⊢
    exact ⟨_, decodeStep_goesOn m f s' ha hu, present_ports _ s s'⟩
  · obtain ⟨ha, v, hd, hfault⟩ := (decodeStep_fault_iff m f s _).1 h
    obtain ⟨rfl, -⟩ := Fault.invariant.inj hfault
    rw [hconfig] at ha hd
    exact ⟨_, (decodeStep_fault_iff m f s' _).2 ⟨ha, u, hd, rfl⟩⟩
  · rw [decodeStep_refused_iff] at h ⊢
    rwa [← hconfig]

end Sys2Proof.Machine

/-! ### Frame bits without effect on the value (41_decoder R157, R158) -/

namespace Sys2Proof.Machine

/-- A bit of a frame is a bit of one of its bytes. -/
theorem getLsbD_eq_frameByte (f : Frame) (j : Nat) : f.getLsbD j = (frameByte f (j / 8)).getLsbD (j % 8) := by
  have hbit : 8 * (j / 8) + j % 8 = j := Nat.div_add_mod j 8
  have hlt : j % 8 < 8 := Nat.mod_lt j (by decide)
  simp [frameByte, hbit, hlt]

/-- The mask drops bytes 12 and 13. -/
theorem fieldMask_getLsbD_of_ge (j : Nat) (h : 96 ≤ j) : fieldMask.getLsbD j = false := by
  have hlow : fieldMask = (fieldMask.extractLsb' 0 96).setWidth 112 := by decide
  rw [hlow, BitVec.getLsbD_setWidth, BitVec.getLsbD_of_ge _ j h, Bool.and_false]

/-- Frames that agree on bytes 0 to 11 agree on the fields. -/
theorem mask_eq_of_frameBytes (f g : Frame) (h : ∀ k, k < 12 → frameByte f k = frameByte g k) :
    f &&& fieldMask = g &&& fieldMask := by
  apply BitVec.eq_of_getLsbD_eq
  intro j _
  rw [BitVec.getLsbD_and, BitVec.getLsbD_and]
  by_cases hj : j < 96
  · rw [getLsbD_eq_frameByte f, getLsbD_eq_frameByte g, h (j / 8) (by omega)]
  · rw [fieldMask_getLsbD_of_ge j (by omega), Bool.and_false, Bool.and_false]

/-- Settles O43: bytes 12 and 13 are among the ignored bits of `ignoredFrameBitsHaveNoEffect`. -/
theorem terminatorIsNotChecked : Obligations.TerminatorIsNotChecked :=
  fun f g s h => ignoredFrameBitsHaveNoEffect f g s (mask_eq_of_frameBytes f g h)

/-- The frames agree in every bit but OL, `F[7][0]`, and UL, `F[9][3]`. -/
def EqButOlUl (f g : Frame) : Prop := ∀ j, j ≠ 56 → j ≠ 75 → f.getLsbD j = g.getLsbD j

/-- Two frames that the same two bits make equal differ at most there. -/
theorem eqButOlUl_of_or_eq (f g : Frame)
    (h : f ||| BitVec.twoPow 112 56 ||| BitVec.twoPow 112 75 = g ||| BitVec.twoPow 112 56 ||| BitVec.twoPow 112 75) :
    EqButOlUl f g := by
  intro j h56 h75
  simpa [BitVec.getLsbD_twoPow, h56.symm, h75.symm] using congrArg (BitVec.getLsbD · j) h

/-- A field that holds neither bit is the same. -/
theorem EqButOlUl.extract_eq {f g : Frame} (h : EqButOlUl f g) (i n : Nat) (h56 : i + n ≤ 56 ∨ 56 < i)
    (h75 : i + n ≤ 75 ∨ 75 < i) : f.extractLsb' i n = g.extractLsb' i n := by
  apply BitVec.eq_of_getLsbD_eq
  intro j hj
  rw [BitVec.getLsbD_extractLsb', BitVec.getLsbD_extractLsb', h (i + j) (by omega) (by omega)]

theorem EqButOlUl.rangeCode_eq {f g : Frame} (h : EqButOlUl f g) : rangeCode f = rangeCode g := by
  rw [Sys2Proof.rangeCode_eq, Sys2Proof.rangeCode_eq, h.extract_eq 0 3 (by decide) (by decide)]

theorem EqButOlUl.mtypeCode_eq {f g : Frame} (h : EqButOlUl f g) : mtypeCode f = mtypeCode g := by
  rw [Sys2Proof.mtypeCode_eq, Sys2Proof.mtypeCode_eq, h.extract_eq 48 4 (by decide) (by decide)]

/-- OL and UL are no part of the digits or the sign. -/
theorem EqButOlUl.signedMantissa_eq {f g : Frame} (h : EqButOlUl f g) : signedMantissa f = signedMantissa g := by
  have hdigits : digitsValue f = digitsValue g := by
    simp (disch := decide) only [digitsValue, h.extract_eq]
  rw [signedMantissa_eq_signedDigits, signedMantissa_eq_signedDigits, signedDigits, signedDigits, hdigits,
    h 58 (by decide) (by decide)]

/-- OL and UL select no table. -/
theorem EqButOlUl.selectTable_eq {f g : Frame} (h : EqButOlUl f g) (me : MtEntry) : selectTable f me = selectTable g me := by
  have hpercent : flagPercent f = flagPercent g := h 59 (by decide) (by decide)
  have hhz : flagHz f = flagHz g := h 80 (by decide) (by decide)
  rw [selectTable, selectTable, hpercent, hhz]

/-- The result with other flags in its Reading. -/
def DecodeResult.withFlags (flags : BitVec 13) (r : DecodeResult) : DecodeResult :=
  match r with
  | .reading rd => .reading { rd with flags := flags }
  | .error e => .error e
  | .invariant u => .invariant u

/-- Frames that differ at most in OL and UL decode alike but for FLAGS (41_decoder R157). -/
theorem EqButOlUl.decodeAs_eq {f g : Frame} (h : EqButOlUl f g) (c : Config) (m : Nibble) :
    decodeAs c m g = (decodeAs c m f).withFlags (flagsOf g) := by
  unfold decodeAs
  simp only [h.rangeCode_eq, h.selectTable_eq]
  split
  · rfl
  · split
    · rfl
    · split
      · rfl
      · split
        · rfl
        · simp [DecodeResult.withFlags, mkReading, h.rangeCode_eq, h.signedMantissa_eq]

/-- With other flags a result drives the ports as before but for the FLAGS of the Reading. -/
theorem present_withFlags (flags : BitVec 13) (r : DecodeResult) (s : State) :
    (present (r.withFlags flags) s).status = (present r s).status ∧
    (present (r.withFlags flags) s).readingValid = (present r s).readingValid ∧
    { (present (r.withFlags flags) s).reading with flags := (present r s).reading.flags } = (present r s).reading := by
  cases r <;> exact ⟨rfl, rfl, rfl⟩

theorem DecodeResult.withFlags_eq_invariant_iff (flags : BitVec 13) (r : DecodeResult) (u : Nibble) :
    r.withFlags flags = .invariant u ↔ r = .invariant u := by
  cases r <;> simp [DecodeResult.withFlags]

/-- Settles O45: the two results differ in FLAGS alone (`EqButOlUl.decodeAs_eq`), and the second Reading is the record of
its own frame. -/
theorem overloadAndUnderrangeKeepTheValue : Obligations.OverloadAndUnderrangeKeepTheValue := by
  intro f g s t hor h
  have hfg := eqButOlUl_of_or_eq f g hor
  obtain ⟨ha, rfl, hu⟩ := decodeStep_next (mtypeCode f) f s t h
  have hd := hfg.decodeAs_eq s.config (mtypeCode f)
  have hstep := decodeStep_goesOn (mtypeCode f) g s ha fun u => by
    rw [hd, Ne, DecodeResult.withFlags_eq_invariant_iff]
    exact hu u
  have hexec : exec (.decode g) s = decodeStep (mtypeCode f) g s := by rw [hfg.mtypeCode_eq]; rfl
  obtain ⟨hstatus, hvalid, hreading⟩ :=
    present_withFlags (flagsOf g) (decodeAs s.config (mtypeCode f) f) (clearOutputs s)
  rw [← hd] at hstatus hvalid hreading
  refine ⟨_, hexec.trans hstep, hstatus, hvalid, fun hv => ⟨hreading, ?_⟩⟩
  obtain ⟨me, tb, re, cu, uexp, -, -, hr⟩ :=
    decodeAs_reading_readingIs _ _ g _ (decodeStep_next_reading _ g s _ hstep (hvalid.trans hv))
  obtain ⟨⟨hol, -, -, -, -, -, -, hul, -⟩, -, -, -, -, -, -, hmant, -⟩ := hr
  exact ⟨hmant, hol, hul⟩

end Sys2Proof.Machine

/-! ### Steps, refusals and faults (41_decoder R131, R144, R155) -/

namespace Sys2Proof.Machine

/-- Settles O6: the command is DECODE of its frame, which is the row of the frame's own code. -/
theorem stepRunsTheFramesRow : Obligations.StepRunsTheFramesRow := by
  intro s cmd f rest hwaiting hop
  have hdecode : decodeCommand ⟨cmd, f⟩ = .decode f := by
    rw [decodeCommand, show cmdOp cmd = 2 from hop, commandInstr_2]
  rw [step_waiting s _ rest hwaiting, hdecode]
  exact (exec_mtypeInstr (mtypeCode f) f _).symm

/-- Settles O46: a waiting command is refused for the configuration, or as a reserved operation. -/
theorem inadmissibleConfigurationIsRefused : Obligations.InadmissibleConfigurationIsRefused := by
  intro s ha
  refine ⟨fun i hr => exec_inadmissible i s hr ha, fun x rest t hwaiting h => ?_⟩
  rw [step_waiting s x rest hwaiting] at h
  have ha' := (exec_next_cases _ _ t h).1
  simp [ha] at ha'

/-- A PUSH faults only through the decode of the frame it emits. -/
theorem execPush_fault (b : Byte) (s : State) (x : Fault) (h : execPush b s = .fault x) :
    ∃ m f u, decodeAs s.config m f = .invariant u := by
  have ha := (ifAdmitted_fault s _ x h).1
  cases hf : (framerPush b (clearOutputs s)).2 with
  | none =>
    rw [execPush_none b s ha hf] at h
    cases h
  | some f =>
    rw [execPush_some b s f ha hf] at h
    obtain ⟨u, hd, -⟩ := conclude_fault _ _ x h
    exact ⟨_, f, u, hd⟩

/-- Every fault is that of a decode (60_exceptions R205). -/
theorem exec_fault (i : Instr) (s : State) (x : Fault) (h : exec i s = .fault x) :
    ∃ m f u, decodeAs s.config m f = .invariant u := by
  rcases instr_cases i with rfl | ⟨b, rfl⟩ | ⟨f, rfl⟩ | rfl | rfl | hr | ⟨m, f, rfl⟩
  · cases (ifAdmitted_fault s _ x h).2
  · exact execPush_fault b s x h
  · obtain ⟨-, u, hd, -⟩ := (decodeStep_fault_iff (mtypeCode f) f s x).1 h
    exact ⟨_, f, u, hd⟩
  · cases (ifAdmitted_fault s _ x h).2
  · cases (ifAdmitted_fault s _ x h).2
  · obtain ⟨op, e⟩ := exec_reserved i s hr
    rw [e] at h
    cases h
  · rw [exec_mtypeInstr] at h
    obtain ⟨-, u, hd, -⟩ := (decodeStep_fault_iff m f s x).1 h
    exact ⟨m, f, u, hd⟩

/-- Settles O55: every fault is a decode's, and WF7 leaves no decode a fault. -/
theorem mappedUnitsNeverFault : Obligations.MappedUnitsNeverFault := by
  intro i s x h7 h
  obtain ⟨m, f, u, hd⟩ := exec_fault i s x h
  exact decodeAs_ne_invariant_of_wf7 s.config m f u h7 hd

end Sys2Proof.Machine

/-! Proofs of the statements of 42_stream_reader. -/

/-! ### A completing LF (42_stream_reader R180, R181) -/

namespace Sys2Proof.Machine

/-- The Decoder's output ports show the same: status, error term, and a Reading where it is valid. -/
abbrev DecoderPortsSame (s t : State) : Prop :=
  t.status = s.status ∧ t.errorInfo = s.errorInfo ∧ t.readingValid = s.readingValid ∧
    (s.readingValid = true → t.reading = s.reading)

/-- Driven with one result, the Decoder's ports show the same from any two states. -/
theorem present_decoderPortsSame (r : DecodeResult) (s s' : State) : DecoderPortsSame (present r s) (present r s') := by
  cases r <;> simp [DecoderPortsSame, present]

/-- A decode without the invariant result goes on. -/
theorem conclude_goesOn (r : DecodeResult) (s : State) (h : ∀ u, r ≠ .invariant u) : conclude r s = .next s := by
  cases r with
  | reading rd => rfl
  | error e => rfl
  | invariant u => exact absurd rfl (h u)

/-- After CR and thirteen bytes an LF emits the frame of the last thirteen and itself (40_framer R103). -/
theorem framerPush_LF_emits (s : State) (f : Frame) (hs : StorageOk s) (hprev : s.prev = CR)
    (h13 : 13 ≤ (window s).length) (hbytes : frameBytes f = lastN 13 (window s) ++ [LF]) :
    (framerPush LF s).2 = some f := by
  obtain ⟨g, hg⟩ := (framerPush_emits_iff_completes LF s hs).2 ((completes_LF_iff s hs).2 ⟨hprev, h13⟩)
  have h14 : (window s).length ≤ 14 := by simpa using hs.2
  have hgf : frameBytes g = frameBytes f := by
    rw [framerPush_some_bytes LF s g hs hg, windowAppend_lastN _ LF h13 h14, hbytes]
  rw [hg, frame_ext g f hgf]

/-- An attempt that has a frame ends a read in progress (42_stream_reader R185). -/
theorem readerAttempt_some_attemptWithFrame (f : Frame) (s : State) : AttemptWithFrame s (readerAttempt (some f) s) := by
  cases hr : s.rdActive with
  | false => simp [AttemptWithFrame, readerAttempt_idle _ _ hr, hr]
  | true => simp [AttemptWithFrame, readerAttempt_frame _ _ hr, hr]

/-- The state that an LF leaves which emitted `f`, when the decode of `f` answered `r` (42_stream_reader R180). -/
def afterEmission (f : Frame) (r : DecodeResult) (s : State) : State :=
  readerAttempt (some f) (present r (framerPush LF (clearOutputs s)).1)

/-- The emission shows the frame, empties the window and ends a read, whatever its decode answers. -/
theorem afterEmission_framer (f : Frame) (r : DecodeResult) (s : State) (hs : StorageOk s)
    (hf : (framerPush LF (clearOutputs s)).2 = some f) :
    (afterEmission f r s).frameValid = true ∧ (afterEmission f r s).frameOut = f ∧ window (afterEmission f r s) = [] ∧
      (afterEmission f r s).prev = LF ∧ AttemptWithFrame s (afterEmission f r s) ∧ HostSame s (afterEmission f r s) := by
  obtain ⟨hvalid, hout⟩ := framerPush_emits LF _ f hf
  have hwindow := (window_framerPush LF (clearOutputs s) hs).trans (if_pos rfl)
  have hread : AttemptWithFrame _ (afterEmission f r s) := readerAttempt_some_attemptWithFrame f _
  refine ⟨?_, ?_, ?_, ?_, ?_, ?_⟩
  · simp [afterEmission, readerAttempt_frameRule, present_frame, hvalid]
  · simp [afterEmission, readerAttempt_frameRule, present_frame, hout]
  · simp [afterEmission, readerAttempt_frameRule, present_frame, hwindow]
  · simp [afterEmission, readerAttempt_frameRule, present_frame, framerPush_frame]
  · simpa [AttemptWithFrame, present_frame, framerPush_frame] using hread
  · simp [HostSame, afterEmission, readerAttempt_frameRule, present_frame, framerPush_frame]

/-- Beside the emission the Decoder's ports show what they show without it: the attempt reports nothing of its own. -/
theorem afterEmission_decoderPortsSame (f : Frame) (r : DecodeResult) (s : State) :
    DecoderPortsSame (present r (clearOutputs s)) (afterEmission f r s) := by
  have ⟨hstatus, hvalid, herror⟩ := readerAttempt_some_ports f (present r (framerPush LF (clearOutputs s)).1)
  have hports := present_decoderPortsSame r (clearOutputs s) (framerPush LF (clearOutputs s)).1
  simpa [DecoderPortsSame, afterEmission, hstatus, hvalid, herror, readerAttempt_frameRule] using hports

/-- Settles O18: DECODE and PUSH conclude with one result of `decodeAs`, which fixes the Decoder's ports; Framer and reader
are left by the emission alone. -/
theorem pushDecodesAsDecodeDoes : Obligations.PushDecodesAsDecodeDoes := by
  intro s f hs hprev h13 hbytes
  have hemits : (framerPush LF (clearOutputs s)).2 = some f := framerPush_LF_emits (clearOutputs s) f hs hprev h13 hbytes
  have hpush (ha : s.config.admitted = true) : exec (.push LF) s =
      conclude (decodeAs s.config (mtypeCode f) f) (afterEmission f (decodeAs s.config (mtypeCode f) f) s) :=
    execPush_some LF s f ha hemits
  obtain ⟨hvalid, hout, hframer⟩ := afterEmission_framer f (decodeAs s.config (mtypeCode f) f) s hs hemits
  obtain ⟨hstatus, herror, hreadingValid, hreading⟩ :=
    afterEmission_decoderPortsSame f (decodeAs s.config (mtypeCode f) f) s
  refine ⟨fun d h => ?_, fun u d h => ?_, fun h => ?_⟩
  · obtain ⟨ha, rfl, hu⟩ := decodeStep_next (mtypeCode f) f s d h
    exact ⟨_, (hpush ha).trans (conclude_goesOn _ _ hu), hvalid, hout, hstatus, hreadingValid, hreading, herror, hframer⟩
  · obtain ⟨ha, v, hd, hfault⟩ := (decodeStep_fault_iff (mtypeCode f) f s _).1 h
    obtain ⟨rfl, -⟩ := Fault.invariant.inj hfault
    rw [hd] at hpush hvalid hout hstatus hreadingValid hframer
    exact ⟨_, hpush ha, hvalid, hout, hstatus, hreadingValid, hframer⟩
  · have ha := ((decodeStep_refused_iff (mtypeCode f) f s _).1 h).1
    exact exec_inadmissible (.push LF) s rfl ha

/-- Settles O17: DECODE of the frame returns its Reading (`decodeReturnsTheReading`), and PUSH decodes as DECODE does. -/
theorem pushEmitsAndReads : Obligations.PushEmitsAndReads := by
  intro s f me tb re cu uexp hs ha hprev h13 hbytes hme htb hre hunit
  obtain ⟨d, hd, -, hstatus, hvalid, hreading, herror, -⟩ :=
    decodeReturnsTheReading (.decode f) _ f s me tb re cu uexp (.inl ⟨rfl, rfl⟩) ha hme htb hre hunit
  obtain ⟨t, hpush, hframeValid, hout, hstatus', hvalid', hreading', herror', hframer⟩ :=
    (pushDecodesAsDecodeDoes s f hs hprev h13 hbytes).1 d hd
  rw [← hreading' hvalid] at hreading
  exact ⟨t, hpush, hframeValid, hout, hstatus'.trans hstatus, hvalid'.trans hvalid, hreading, herror'.trans herror, hframer⟩

end Sys2Proof.Machine

/-! ### The output ports after each command (42_stream_reader R182, R184) -/

namespace Sys2Proof.Machine

/-- Settles O13: RDSTART is `readerStart` on the cleared outputs. -/
theorem rdstartCommand : Obligations.RdstartCommand := by
  intro s ha
  refine ⟨_, ifAdmitted_admitted s _ ha, ?_⟩
  simp [FramerSame, OutputsIdle, HostSame]

/-- An attempt reports READ_EXHAUSTED or leaves the status and the error term as they were (42_stream_reader R185). -/
theorem readerAttempt_report (f : Option Frame) (s : State) :
    (readerAttempt f s).status = 4 ∨
      ((readerAttempt f s).status = s.status ∧ (readerAttempt f s).errorInfo = s.errorInfo) := by
  rcases readerAttempt_cases f s with ⟨-, e⟩ | ⟨-, -, e⟩ | ⟨-, -, -, e⟩ | ⟨-, -, -, e⟩ <;> rw [e]
  · exact .inr ⟨rfl, rfl⟩
  · exact .inr ⟨rfl, rfl⟩
  · exact .inl rfl
  · exact .inr ⟨rfl, rfl⟩

/-- From idle outputs, an attempt without a frame shows no Reading and reports OK or READ_EXHAUSTED. -/
theorem readerAttempt_none_outputs (s : State) (h : OutputsIdle s) :
    ((readerAttempt none s).status = 0 ∨ (readerAttempt none s).status = 4) ∧
      (readerAttempt none s).readingValid = false := by
  obtain ⟨-, hstatus, hreading, -⟩ := h
  refine ⟨?_, readerAttempt_none_readingValid s hreading⟩
  rcases readerAttempt_report none s with h4 | ⟨hsame, -⟩
  · exact .inr h4
  · exact .inl (hsame.trans hstatus)

/-- A result shows a Reading exactly when it reports OK: every error has a code of its own (60_exceptions R201). -/
theorem present_readingValid_iff (r : DecodeResult) (s : State) :
    (present r s).readingValid = true ↔ (present r s).status = 0 := by
  cases r with
  | reading rd => simp [present, statusOk]
  | error e => cases e <;> simp [present, ErrorInfo.code]
  | invariant u => simp [present, ErrorInfo.code]

/-- Without the invariant result a decode reports OK or one of its own three errors (60_exceptions R201). -/
theorem present_status_le (c : Config) (m : Nibble) (f : Frame) (s : State) (hu : ∀ u, decodeAs c m f ≠ .invariant u) :
    (present (decodeAs c m f) s).status.toNat ≤ 3 := by
  cases hd : decodeAs c m f with
  | reading rd => simp [present, statusOk]
  | error e => rcases decodeAs_error_code c m f e hd with rfl | rfl | ⟨t, rfl⟩ <;> simp [present, ErrorInfo.code]
  | invariant u => exact absurd hd (hu u)

/-- A PUSH that goes on without a frame shows no Reading and reports OK or READ_EXHAUSTED. -/
theorem execPush_silent_outputs (b : Byte) (s t : State) (h : execPush b s = .next t) (hsilent : t.frameValid = false) :
    (t.status = 0 ∨ t.status = 4) ∧ t.readingValid = false := by
  have hvalid := execPush_frameValid_iff b s t h
  rcases (execPush_next b s t h).2 with ⟨hnone, rfl⟩ | ⟨f, hsome, -, -⟩
  · exact readerAttempt_none_outputs _ (framerPush_outputsIdle b (clearOutputs s) ⟨rfl, rfl, rfl, rfl⟩ hnone)
  · simp [hsilent, hsome] at hvalid

/-- A PUSH that goes on with a frame reports what DECODE of that frame does. -/
theorem execPush_emitting_outputs (b : Byte) (s t : State) (h : execPush b s = .next t) (hframe : t.frameValid = true) :
    (∃ d, exec (.decode t.frameOut) s = .next d ∧ t.status = d.status) ∧ (t.readingValid = true ↔ t.status = 0) := by
  have hvalid := (execPush_frameValid_iff b s t h).1 hframe
  obtain ⟨ha, ⟨hnone, -⟩ | ⟨f, hsome, hu, rfl⟩⟩ := execPush_next b s t h
  · simp [hnone] at hvalid
  · obtain ⟨hstatus, hreading, -⟩ := readerAttempt_some_ports f
      (present (decodeAs s.config (mtypeCode f) f) (framerPush b (clearOutputs s)).1)
    have hout := (framerPush_emits b (clearOutputs s) f hsome).2
    rw [hstatus, hreading]
    refine ⟨⟨_, ?_, (present_decoderPortsSame _ (clearOutputs s) _).1⟩, present_readingValid_iff _ _⟩
    simp only [readerAttempt_frameRule, present_frame, hout]
    exact decodeStep_goesOn (mtypeCode f) f s ha hu

/-- A step of the Decoder that goes on reports OK or a decode's error, and shows a Reading exactly with OK. -/
theorem decodeStep_outputs (m : Nibble) (f : Frame) (s t : State) (h : decodeStep m f s = .next t) :
    t.frameValid = false ∧ t.status.toNat ≤ 3 ∧ (t.readingValid = true ↔ t.status = 0) := by
  have hframe := decodeStep_frameValid m f s t h
  obtain ⟨-, rfl, hu⟩ := decodeStep_next m f s t h
  exact ⟨hframe, present_status_le _ m f _ hu, present_readingValid_iff _ _⟩

/-- Settles O53: row by row, what the operation of each command leaves on the ports. -/
theorem outputsOfEachCommand : Obligations.OutputsOfEachCommand := by
  intro s t
  refine ⟨fun h => ?_, fun b => execPush_silent_outputs b s t, fun b => execPush_emitting_outputs b s t,
    fun f => decodeStep_outputs (mtypeCode f) f s t, fun h => ?_, fun h => ?_⟩
  · cases (ifAdmitted_next s _ t h).2
    obtain ⟨hstatus, hreading⟩ := readerAttempt_none_outputs (clearOutputs s) ⟨rfl, rfl, rfl, rfl⟩
    exact ⟨by simp [readerAttempt_frameRule], hstatus, hreading⟩
  · cases (ifAdmitted_next s _ t h).2
    exact ⟨rfl, rfl, rfl⟩
  · cases (ifAdmitted_next s _ t h).2
    exact ⟨rfl, rfl, rfl⟩

end Sys2Proof.Machine

/-! ### The reader's registers have no influence (42_stream_reader R187) -/

namespace Sys2Proof.Machine

/-- `s` with other contents of RD_ACTIVE and ATTEMPTS. -/
def withReader (active : Bool) (n : Nat) (s : State) : State := { s with rdActive := active, attempts := n }

@[simp] theorem withReader_prev (active : Bool) (n : Nat) (s : State) : (withReader active n s).prev = s.prev := rfl

@[simp] theorem window_withReader (active : Bool) (n : Nat) (s : State) : window (withReader active n s) = window s := rfl

theorem clearOutputs_withReader (active : Bool) (n : Nat) (s : State) :
    clearOutputs (withReader active n s) = withReader active n (clearOutputs s) := rfl

theorem winAppend_withReader (active : Bool) (n : Nat) (b : Byte) (s : State) :
    winAppend b (withReader active n s) = withReader active n (winAppend b s) := by
  rw [winAppend, winAppend, apply_ite (withReader active n)]
  rfl

/-- A push carries the reader's registers along and reads none of them. -/
theorem framerPush_withReader (active : Bool) (n : Nat) (b : Byte) (s : State) :
    framerPush b (withReader active n s) = (withReader active n (framerPush b s).1, (framerPush b s).2) := by
  have hstored : setPrev b (winAppend b (withReader active n s)) = withReader active n (setPrev b (winAppend b s)) := by
    rw [winAppend_withReader]
    rfl
  simp only [framerPush, hstored, window_withReader, withReader_prev]
  split
  · rfl
  · split <;> rfl

theorem present_withReader (active : Bool) (n : Nat) (r : DecodeResult) (s : State) :
    present r (withReader active n s) = withReader active n (present r s) := by
  cases r <;> rfl

/-- The Framer and the output ports show the same, but for the reader's own report READ_EXHAUSTED. -/
abbrev SameButReader (t u : State) : Prop :=
  FramerSame t u ∧ u.frameValid = t.frameValid ∧ u.frameOut = t.frameOut ∧ u.readingValid = t.readingValid ∧
    u.reading = t.reading ∧ (t.status ≠ 4 → u.status ≠ 4 → u.status = t.status ∧ u.errorInfo = t.errorInfo)

theorem sameButReader_withReader (active : Bool) (n : Nat) (t : State) : SameButReader t (withReader active n t) :=
  ⟨⟨rfl, rfl, rfl, rfl, rfl⟩, rfl, rfl, rfl, rfl, fun _ _ => ⟨rfl, rfl⟩⟩

theorem sameButReader_refl (t : State) : SameButReader t t :=
  sameButReader_withReader t.rdActive t.attempts t

/-- One attempt with other reader registers: what it leaves differs in those and in their report only. -/
theorem readerAttempt_sameButReader (active : Bool) (n : Nat) (f : Option Frame) (s : State)
    (hreading : f = none → s.readingValid = false) :
    SameButReader (readerAttempt f s) (readerAttempt f (withReader active n s)) := by
  have hkeeps (x : State) (hx : f = none → x.readingValid = false) :
      (readerAttempt f x).readingValid = x.readingValid := by
    cases f with
    | none => rw [hx rfl, readerAttempt_none_readingValid x (hx rfl)]
    | some g => exact (readerAttempt_some_ports g x).2.1
  have hvalid := hkeeps s hreading
  have hvalid' := hkeeps (withReader active n s) hreading
  simp only [SameButReader, FramerSame, readerAttempt_frameRule]
  refine ⟨⟨rfl, rfl, rfl, rfl, rfl⟩, rfl, rfl, hvalid'.trans hvalid.symm, rfl, fun ht hu => ?_⟩
  obtain ⟨hstatus, herror⟩ := (readerAttempt_report f s).resolve_left ht
  obtain ⟨hstatus', herror'⟩ := (readerAttempt_report f (withReader active n s)).resolve_left hu
  exact ⟨hstatus'.trans hstatus.symm, herror'.trans herror.symm⟩

/-- A PUSH that goes on does so with any reader registers, and differs in those and in their report only. -/
theorem execPush_withReader (active : Bool) (n : Nat) (b : Byte) (s t : State) (h : execPush b s = .next t) :
    ∃ u, execPush b (withReader active n s) = .next u ∧ SameButReader t u := by
  have hpush := framerPush_withReader active n b (clearOutputs s)
  rw [← clearOutputs_withReader] at hpush
  obtain ⟨ha, ⟨hnone, rfl⟩ | ⟨f, hsome, hu, rfl⟩⟩ := execPush_next b s t h
  · have hexec := execPush_none b (withReader active n s) ha (by rw [hpush, hnone])
    rw [hpush] at hexec
    obtain ⟨-, -, hreading, -⟩ := framerPush_outputsIdle b (clearOutputs s) ⟨rfl, rfl, rfl, rfl⟩ hnone
    exact ⟨_, hexec, readerAttempt_sameButReader active n none _ fun _ => hreading⟩
  · have hexec := execPush_some b (withReader active n s) f ha (by rw [hpush, hsome])
    rw [hpush, present_withReader] at hexec
    exact ⟨_, hexec.trans (conclude_goesOn _ _ hu), readerAttempt_sameButReader active n (some f) _ (by simp)⟩

/-- So does a step of the Decoder, which carries them along. -/
theorem decodeStep_withReader (active : Bool) (n : Nat) (m : Nibble) (f : Frame) (s t : State)
    (h : decodeStep m f s = .next t) : decodeStep m f (withReader active n s) = .next (withReader active n t) := by
  obtain ⟨ha, rfl, hu⟩ := decodeStep_next m f s t h
  rw [← present_withReader]
  exact decodeStep_goesOn m f (withReader active n s) ha hu

/-- Every instruction that goes on does so with any reader registers, and differs in those and in their report only; RESET
and RDSTART overwrite them. -/
theorem exec_withReader (active : Bool) (n : Nat) (i : Instr) (s t : State) (h : exec i s = .next t) :
    ∃ u, exec i (withReader active n s) = .next u ∧ SameButReader t u := by
  obtain ⟨ha, hcases⟩ := exec_next_cases i s t h
  have ha' : (withReader active n s).config.admitted = true := ha
  rcases hcases with ⟨rfl, rfl⟩ | ⟨b, rfl, hpush⟩ | ⟨m, f, hi, hdecode⟩ | ⟨rfl, rfl⟩ | ⟨rfl, rfl⟩
  · exact ⟨_, ifAdmitted_admitted _ _ ha', readerAttempt_sameButReader active n none (clearOutputs s) fun _ => rfl⟩
  · exact execPush_withReader active n b s t hpush
  · have hexec (x : State) : exec i x = decodeStep m f x := by
      rcases hi with ⟨rfl, rfl⟩ | rfl
      · rfl
      · exact exec_mtypeInstr m f x
    exact ⟨_, (hexec _).trans (decodeStep_withReader active n m f s t hdecode), sameButReader_withReader active n t⟩
  · exact ⟨_, ifAdmitted_admitted _ _ ha', sameButReader_refl _⟩
  · exact ⟨_, ifAdmitted_admitted _ _ ha', sameButReader_refl _⟩

/-- Settles O48: `exec_withReader`, where the ports are equal also where the statement does not ask it. -/
theorem readerNeverInfluencesTheFramer : Obligations.ReaderNeverInfluencesTheFramer := by
  intro i s t active n h
  obtain ⟨u, hexec, ⟨hmem, hhead, hcnt, hwindow, hprev⟩, hframe, hout, hvalid, hreading, hreport⟩ :=
    exec_withReader active n i s t h
  exact ⟨u, hexec, fun _ => hmem, hhead, hcnt, hwindow, hprev, hframe, fun _ => hout, hvalid, fun _ => hreading, hreport⟩

end Sys2Proof.Machine

/-! ### A silent line (42_stream_reader R185, R186, R188) -/

namespace Sys2Proof.Machine

/-- One command more in a run that went on is one step from where it stands. -/
theorem run_add_one (M : Host.Core) (k : Nat) (s t : M.State) (h : M.run k s = .next t) : M.run (k + 1) s = M.step t := by
  induction k generalizing s with
  | zero =>
    cases h
    simp only [Host.Core.run]
    cases M.step t <;> rfl
  | succ k ih =>
    rw [Host.Core.run] at h ⊢
    cases hstep : M.step s with
    | next s' =>
      rw [hstep] at h
      exact ih s' h
    | fault r => simp [hstep] at h
    | refused r => simp [hstep] at h

/-- A waiting IDLE is consumed, leaves the Framer alone and is one attempt without a frame (40_framer R108). -/
theorem step_idle (s : State) (rest : List Input) (ha : s.config.admitted = true)
    (hwaiting : s.inputs = ⟨0x000, 0⟩ :: rest) :
    ∃ t, step s = .next t ∧ FramerSame s t ∧ t.config = s.config ∧ t.inputs = rest ∧ AttemptWithoutFrame s t := by
  obtain ⟨t, hexec, hframer, ⟨hconfig, hinputs⟩, -, -, hattempt⟩ := idleCommand (setInputs rest s) ha
  exact ⟨t, (step_waiting s _ rest hwaiting).trans hexec, hframer, hconfig, hinputs, hattempt⟩

/-- Silent commands within the budget are counted, and nothing else happens. -/
theorem run_idles (n : Nat) (s : State) (rest : List Input) (ha : s.config.admitted = true) (hr : s.rdActive = true)
    (hbudget : s.attempts + n < s.config.budget) (hwaiting : s.inputs = List.replicate n ⟨0x000, 0⟩ ++ rest) :
    ∃ t : State, core.run n s = .next t ∧ FramerSame s t ∧ t.config = s.config ∧ t.inputs = rest ∧
      t.rdActive = true ∧ t.attempts = s.attempts + n ∧ (0 < n → t.status = 0) := by
  induction n generalizing rest with
  | zero => exact ⟨s, rfl, ⟨rfl, rfl, rfl, rfl, rfl⟩, rfl, hwaiting, hr, rfl, by simp⟩
  | succ n ih =>
    rw [List.replicate_succ', List.append_assoc] at hwaiting
    obtain ⟨t, hrun, hframer, hconfig, hinputs, hactive, hcount, -⟩ := ih _ (by omega) hwaiting
    rw [← hconfig] at ha hbudget
    obtain ⟨u, hstep, hframer', hconfig', hinputs', hattempt⟩ := step_idle t rest ha hinputs
    rw [AttemptWithoutFrame, if_pos hactive, if_neg (by omega)] at hattempt
    obtain ⟨hactive', hcount', hstatus, -⟩ := hattempt
    refine ⟨u, (run_add_one core n s t hrun).trans hstep, ?_, hconfig'.trans hconfig, hinputs', hactive', ?_,
      fun _ => hstatus⟩
    · simpa only [FramerSame, hframer] using hframer'
    · rw [hcount' (by omega), hcount, Nat.add_assoc]

/-- Settles O49: `n` silent commands are counted (`run_idles`), and the next is the attempt that spends the budget. -/
theorem silenceExhaustsTheRead : Obligations.SilenceExhaustsTheRead := by
  intro n s rest ha hr hbudget hwaiting
  rw [List.replicate_succ', List.append_assoc] at hwaiting
  obtain ⟨t, hrun, hframer, hconfig, hinputs, hactive, hcount, hstatus⟩ := run_idles n s _ ha hr (by omega) hwaiting
  refine ⟨⟨t, hrun, hactive, hstatus⟩, ?_⟩
  rw [← hconfig] at ha hbudget
  obtain ⟨u, hstep, hframer', -, hinputs', hattempt⟩ := step_idle t rest ha hinputs
  rw [AttemptWithoutFrame, if_pos hactive, if_pos (by omega)] at hattempt
  obtain ⟨hdone, hzero, hexhausted, -⟩ := hattempt
  refine ⟨u, (run_add_one core n s t hrun).trans hstep, hdone, hzero, hexhausted, ?_, hinputs'⟩
  simpa only [FramerSame, hframer] using hframer'

end Sys2Proof.Machine

/-! Proofs of the statements of 60_exceptions. -/

/-! ### The errors of a decode (60_exceptions R203, R204, R209) -/

namespace Sys2Proof.Machine

/-- An instruction whose decode answers an error goes on and reports it; raising it touches only the ports
(60_exceptions R200). -/
theorem exec_reportsError (i : Instr) (m : Nibble) (f : Frame) (s : State) (e : ErrorInfo) (hi : RunsDecoder i m f)
    (ha : s.config.admitted = true) (hd : decodeAs s.config m f = .error e) :
    ∃ t, exec i s = .next t ∧ ReportsError e t ∧ t.status = e.code ∧ FramerSame s t ∧ ReaderSame s t ∧ HostSame s t := by
  have hstep := decodeStep_goesOn m f s ha (by simp [hd])
  rw [hd] at hstep
  exact ⟨_, (exec_runsDecoder i m f s hi).trans hstep, ⟨rfl, rfl, rfl, rfl⟩, rfl, present_clearOutputs_same (.error e) s⟩

/-- Settles O33: with both flags clear only the mode can select a table, so the second check fails. -/
theorem modeWithoutTableIsReported : Obligations.ModeWithoutTableIsReported := by
  intro i m f s me hi ha hme htable hpercent hhz
  have hnone : selectTable f me = none := (selectTable_none_iff f me).2 ⟨hpercent, hhz, htable⟩
  exact exec_reportsError i m f s _ hi ha (decodeAs_noTable _ m f me hme hnone)

/-- Settles O34: the first two checks succeed with the chosen table, so the third one fails. -/
theorem absentRangeIsReported : Obligations.AbsentRangeIsReported := by
  intro i m f s me tb hi ha hme htb hre
  rw [← rangeCode_eq] at hre ⊢
  have hsome : selectTable f me = some tb := (selectTable_some_iff f me tb).2 htb
  exact exec_reportsError i m f s _ hi ha (decodeAs_absentRange _ m f me tb hme hsome hre)

/-- The checks of a decode in their order: the first that fails fixes the answer, a Reading when none does
(60_exceptions R209). -/
theorem decodeAs_cases (c : Config) (m : Nibble) (f : Frame) :
    (c.mtRead m = none ∧ decodeAs c m f = .error (.unknownMode m)) ∨
    (∃ me, c.mtRead m = some me ∧ selectTable f me = none ∧ decodeAs c m f = .error (.noRangeTable m)) ∨
    (∃ me tb, c.mtRead m = some me ∧ selectTable f me = some tb ∧ c.rtRead tb (rangeCode f) = none ∧
      decodeAs c m f = .error (.unknownRange tb (rangeCode f))) ∨
    (∃ me tb re, c.mtRead m = some me ∧ selectTable f me = some tb ∧ c.rtRead tb (rangeCode f) = some re ∧
      re.unit = 15#4 ∧ decodeAs c m f = .invariant re.unit) ∨
    (∃ me tb re r, c.mtRead m = some me ∧ selectTable f me = some tb ∧ c.rtRead tb (rangeCode f) = some re ∧
      re.unit ≠ 15#4 ∧ decodeAs c m f = .reading r) := by
  cases hd : decodeAs c m f with
  | error e =>
    rcases (decodeAs_error_iff c m f e).1 hd with ⟨hme, rfl⟩ | ⟨me, hme, htb, rfl⟩ | ⟨me, tb, hme, htb, hre, rfl⟩
    · exact .inl ⟨hme, rfl⟩
    · exact .inr (.inl ⟨me, hme, htb, rfl⟩)
    · exact .inr (.inr (.inl ⟨me, tb, hme, htb, hre, rfl⟩))
  | invariant u =>
    obtain ⟨me, tb, re, hme, htb, hre, hunit, rfl⟩ := (decodeAs_invariant_iff c m f u).1 hd
    exact .inr (.inr (.inr (.inl ⟨me, tb, re, hme, htb, hre, (normMap_eq_none_iff _).1 hunit, rfl⟩)))
  | reading r =>
    obtain ⟨me, tb, re, cu, uexp, hme, htb, hre, hunit, -⟩ := (decodeAs_reading_iff c m f r).1 hd
    have hmapped : re.unit ≠ 15#4 := fun h15 => by simp [(normMap_eq_none_iff _).2 h15] at hunit
    exact .inr (.inr (.inr (.inr ⟨me, tb, re, r, hme, htb, hre, hmapped, rfl⟩)))

/-- Settles O36: in each case of `decodeAs_cases` the ports are those of its answer, and the fault is the invariant's. -/
theorem theFirstFailingCheckIsReported : Obligations.TheFirstFailingCheckIsReported := by
  intro i m f s hi ha
  simp only [exec_runsDecoder i m f s hi, ← selectTable_some_iff, ← rangeCode_eq]
  refine ⟨fun t h => ?_, ?_⟩
  · obtain ⟨-, rfl, hu⟩ := decodeStep_next m f s t h
    rcases decodeAs_cases s.config m f with
      ⟨hme, hd⟩ | ⟨me, hme, htb, hd⟩ | ⟨me, tb, hme, htb, hre, hd⟩ | ⟨me, tb, re, -, -, -, -, hd⟩ |
      ⟨me, tb, re, r, hme, htb, hre, hunit, hd⟩
    · simp [hd, present, ErrorInfo.code, hme]
    · simp [hd, present, ErrorInfo.code, hme, htb]
    · simp [hd, present, ErrorInfo.code, hme, htb, hre]
    · exact absurd hd (hu _)
    · simp [hd, present, statusOk, hme, htb, hre, hunit]
  · simp only [decodeStep_fault_iff, ha, decodeAs_invariant_iff, normMap_eq_none_iff]
    constructor
    · rintro ⟨u, t, -, v, ⟨me, tb, re, hme, htb, hre, hunit, -⟩, -⟩
      exact ⟨me, tb, re, hme, htb, hre, hunit⟩
    · rintro ⟨me, tb, re, hme, htb, hre, hunit⟩
      exact ⟨_, _, trivial, re.unit, ⟨me, tb, re, hme, htb, hre, hunit, rfl⟩, rfl⟩

end Sys2Proof.Machine

/-! ### Exhaustion of a bounded read, and a core without a command (60_exceptions R206, R220) -/

namespace Sys2Proof.Machine

/-- The report READ_EXHAUSTED, and the end of the read that comes with it (60_exceptions R206). -/
abbrev ExhaustedWhen (p : Prop) (t : State) : Prop :=
  (t.status = 4 ↔ p) ∧ (t.status = 4 → t.errorInfo = some .readExhausted ∧ t.rdActive = false ∧ t.attempts = 0)

/-- A step that reports OK or an error of a decode (codes up to 3) exhausts no read. -/
theorem exhaustedWhen_of_status_le (p : Prop) (t : State) (h : t.status.toNat ≤ 3) (hp : ¬ p) : ExhaustedWhen p t := by
  have h4 : t.status ≠ 4 := fun h4 => by simp [h4] at h
  exact ⟨iff_of_false h4 hp, fun h => absurd h h4⟩

/-- An attempt without a frame exhausts the read exactly when it spends the budget. -/
theorem exhaustedWhen_of_attemptWithoutFrame (s t : State) (h : AttemptWithoutFrame s t) :
    ExhaustedWhen (s.rdActive = true ∧ s.attempts + 1 = s.config.budget) t := by
  unfold AttemptWithoutFrame at h
  split at h
  · rename_i hr
    split at h
    · rename_i hn
      obtain ⟨hdone, hzero, hstatus, herror⟩ := h
      exact ⟨iff_of_true hstatus ⟨hr, hn⟩, fun _ => ⟨herror, hdone, hzero⟩⟩
    · rename_i hn
      obtain ⟨-, -, hstatus, -⟩ := h
      exact exhaustedWhen_of_status_le _ t (by simp [hstatus, statusOk]) fun hp => hn hp.2
  · rename_i hr
    obtain ⟨-, -, hstatus, -⟩ := h
    exact exhaustedWhen_of_status_le _ t (by simp [hstatus, statusOk]) fun hp => hr hp.1

/-- A PUSH that goes on exhausts the read exactly when it emits no frame and spends the budget: beside a frame the status is
that of its decode (60_exceptions R210). -/
theorem execPush_exhaustedWhen (b : Byte) (s t : State) (h : execPush b s = .next t) :
    ExhaustedWhen (s.rdActive = true ∧ s.attempts + 1 = s.config.budget ∧ t.frameValid = false) t := by
  cases hframe : t.frameValid with
  | true =>
    obtain ⟨⟨d, hd, hstatus⟩, -⟩ := execPush_emitting_outputs b s t h hframe
    obtain ⟨-, hle, -⟩ := decodeStep_outputs _ _ s d hd
    exact exhaustedWhen_of_status_le _ t (hstatus ▸ hle) (by simp)
  | false =>
    have ha := (execPush_next b s t h).1
    have hnone : (framerPush b (clearOutputs s)).2 = none := by
      simpa [hframe, ← Option.eq_none_iff_forall_ne_some] using execPush_frameValid_iff b s t h
    obtain ⟨u, hu, -, -, -, hattempt, -⟩ := exec_push_silent b s ha hnone
    cases hu.symm.trans h
    simpa using exhaustedWhen_of_attemptWithoutFrame s t hattempt

/-- A measurement-type row is no command word. -/
theorem mtypeInstr_ne_attempt (m : Nibble) (f : Frame) : ¬ (mtypeInstr m f = .idle ∨ ∃ b, mtypeInstr m f = .push b) := by
  rintro (h | ⟨b, h⟩) <;> simpa [h, encode] using encode_mtypeInstr m f

/-- Settles O47: IDLE and a silent PUSH are attempts without a frame; every other step reports OK or a decode's error. -/
theorem exhaustionExactlyAtTheBudget : Obligations.ExhaustionExactlyAtTheBudget := by
  intro i s t h
  change ExhaustedWhen (_ ∧ _ ∧ s.attempts + 1 = s.config.budget ∧ _) t
  rcases (exec_next_cases i s t h).2 with
    ⟨rfl, rfl⟩ | ⟨b, rfl, hpush⟩ | ⟨m, f, hi, hdecode⟩ | ⟨rfl, rfl⟩ | ⟨rfl, rfl⟩
  · have hattempt := readerAttempt_none_attemptWithoutFrame (clearOutputs s) ⟨rfl, rfl, rfl, rfl⟩
    simpa [readerAttempt_frameRule] using exhaustedWhen_of_attemptWithoutFrame (clearOutputs s) _ hattempt
  · simpa using execPush_exhaustedWhen b s t hpush
  · refine exhaustedWhen_of_status_le _ t (decodeStep_outputs m f s t hdecode).2.1 fun hp => ?_
    rcases hi with ⟨rfl, -⟩ | rfl
    · simp at hp
    · exact mtypeInstr_ne_attempt m f hp.1
  · exact exhaustedWhen_of_status_le _ _ (by simp [statusOk]) (by simp)
  · exact exhaustedWhen_of_status_le _ _ (by simp [statusOk]) (by simp)

/-- Settles O8: `step_empty`, the branch of a step with nothing to fetch. -/
theorem stepHoldsWithoutACommand : Obligations.StepHoldsWithoutACommand := by
  intro s hempty
  exact step_empty s hempty

end Sys2Proof.Machine

/-! Proofs of the statements of 70_reset_and_hazards. -/

/-! ### Runs of the Framer from any state (40_framer R111, R112; 70 R231, R239) -/

namespace Sys2Proof.Machine

theorem pushAll_storageOk (bytes : List Byte) (s : State) (hs : StorageOk s) : StorageOk (pushAll bytes s).1 := by
  induction bytes generalizing s with
  | nil => exact hs
  | cons b bytes ih => exact ih _ (framerPush_storageOk b s hs)

/-- PREV after a run is the last byte pushed (40_framer R106). -/
theorem pushAll_concat_prev (bytes : List Byte) (b : Byte) (s : State) : (pushAll (bytes ++ [b]) s).1.prev = b := by
  rw [pushAll_append]
  exact (framerPush_frame b _).1

/-- A push that does not complete a frame is silent. -/
theorem framerPush_silent_of_not_completes (b : Byte) (s : State) (hs : StorageOk s) (hc : ¬ Completes s b) :
    (framerPush b s).2 = none := by
  simpa [← Option.eq_none_iff_forall_ne_some] using mt (framerPush_emits_iff_completes b s hs).1 hc

theorem length_window_framerPush_le (b : Byte) (s : State) (hs : StorageOk s) :
    (window (framerPush b s).1).length ≤ (window s).length + 1 := by
  rw [window_framerPush b s hs, windowAppend]
  split
  · simp
  · split <;> simp

/-- Bytes that leave a place of the window free are silent, LF or not: the fourteenth byte is missing (40_framer R103). -/
theorem pushAll_silent_of_room (bytes : List Byte) (s : State) (hs : StorageOk s)
    (hroom : (window s).length + bytes.length ≤ 13) : (pushAll bytes s).2 = List.replicate bytes.length none := by
  induction bytes generalizing s with
  | nil => rfl
  | cons b bytes ih =>
    rw [List.length_cons] at hroom
    have hsilent : (framerPush b s).2 = none := by
      refine framerPush_silent_of_not_completes b s hs fun ⟨_, _, hfull⟩ => ?_
      have h13 := (length_windowAppend_eq_14_iff (window s) b (by omega)).1 hfull
      omega
    have hgrown := length_window_framerPush_le b s hs
    simp only [pushAll, hsilent, ih _ (framerPush_storageOk b s hs) (by omega), List.length_cons, List.replicate_succ]

/-- Without an LF the window slides: it holds the last fourteen of its own bytes and those pushed (40_framer R105). -/
theorem window_pushAll_of_no_lf (bytes : List Byte) (s : State) (hs : StorageOk s) (h : LF ∉ bytes) :
    window (pushAll bytes s).1 = lastN 14 (window s ++ bytes) := by
  induction bytes using List.reverseRecOn with
  | nil =>
    have h14 : s.wcnt.toNat - 14 = 0 := Nat.sub_eq_zero_of_le hs.2
    simp [pushAll, lastN, h14]
  | append_singleton bytes b ih =>
    obtain ⟨hbytes, hb⟩ : LF ∉ bytes ∧ b ≠ LF := by simpa [eq_comm] using h
    rw [pushAll_append]
    simp only [pushAll]
    rw [window_framerPush b _ (pushAll_storageOk bytes s hs), if_neg hb, ih hbytes, windowAppend_lastN_14,
      List.append_assoc]

theorem lastN_concat (n : Nat) (w : List Byte) (b : Byte) : lastN (n + 1) (w ++ [b]) = lastN n w ++ [b] := by
  simp [lastN, List.drop_append_of_le_length]

theorem lastN_append_right (n : Nat) (v w : List Byte) (h : w.length = n) : lastN n (v ++ w) = w := by
  simp [lastN, h]

/-- From any state, twelve or more bytes without LF and then CR LF: the one emission is at the LF, and its frame is the last
twelve of the bytes and CR LF (40_framer R111, R112). -/
theorem pushAll_terminator_emits (bytes : List Byte) (s : State) (hs : StorageOk s) (hnoLf : LF ∉ bytes)
    (h12 : 12 ≤ bytes.length) :
    ∃ f, frameBytes f = lastN 12 bytes ++ [CR, LF] ∧
      (pushAll (bytes ++ [CR, LF]) s).2 = List.replicate (bytes.length + 1) none ++ [some f] := by
  have hbody : LF ∉ bytes ++ [CR] := by simpa [CR, LF] using hnoLf
  have hu := pushAll_storageOk (bytes ++ [CR]) s hs
  have hprev := pushAll_concat_prev bytes CR s
  have hwindow := window_pushAll_of_no_lf (bytes ++ [CR]) s hs hbody
  have hsilent := pushAll_silent_of_no_lf (bytes ++ [CR]) s hbody
  have hsplit : bytes ++ [CR, LF] = bytes ++ [CR] ++ [LF] := List.append_cons bytes CR [LF]
  rw [hsplit, pushAll_append, hsilent]
  generalize (pushAll (bytes ++ [CR]) s).1 = u at *
  have hlen : 13 ≤ (window u).length ∧ (window u).length ≤ 14 := by
    rw [hwindow, length_lastN]
    simp only [List.length_append, List.length_singleton]
    omega
  have hlast : lastN 13 (window u) = lastN 12 bytes ++ [CR] :=
    calc lastN 13 (window u) = lastN 13 (window s ++ (bytes ++ [CR])) :=
          lastN_of_suffix 13 _ _ (hwindow ▸ List.drop_suffix _ _) hlen.1
      _ = lastN 13 (bytes ++ [CR]) := (lastN_of_suffix 13 _ _ (List.suffix_append _ _) (by simpa using h12)).symm
      _ = lastN 12 bytes ++ [CR] := lastN_concat 12 bytes CR
  obtain ⟨f, hf⟩ := (framerPush_emits_iff_completes LF u hu).2 ((completes_LF_iff u hu).2 ⟨hprev, hlen.1⟩)
  refine ⟨f, ?_, by simp [pushAll, hf]⟩
  rw [framerPush_some_bytes LF u f hu hf, windowAppend_lastN _ LF hlen.1 hlen.2, hlast, List.append_assoc]
  rfl

/-- Settles O26: thirteen bytes do not fill the window that reset leaves empty. -/
theorem noFrameBeforeTheFourteenthPush : Obligations.NoFrameBeforeTheFourteenthPush := by
  intro c bytes hlen e he
  rw [pushAll_silent_of_room bytes _ (resetOf_storageOk c) (by simpa using hlen)] at he
  exact List.eq_of_mem_replicate he

/-- Into an empty window, twelve bytes, a corrupted CR and an LF emit nothing: LF finds another byte in PREV, or comes too
early. -/
theorem pushAll_without_cr (payload : List Byte) (x : Byte) (s : State) (hs : StorageOk s) (hempty : window s = [])
    (hlen : payload.length = 12) (hx : x ≠ CR) : (pushAll (payload ++ [x, LF]) s).2 = List.replicate 14 none := by
  have hbody : (payload ++ [x]).length = 13 := by simp [hlen]
  have hroom := pushAll_silent_of_room (payload ++ [x]) s hs (by simp [hempty, hlen])
  have hprev := pushAll_concat_prev payload x s
  have hlf : (framerPush LF (pushAll (payload ++ [x]) s).1).2 = none :=
    framerPush_silent_of_not_completes LF _ (pushAll_storageOk _ s hs) fun ⟨_, hcr, _⟩ => hx (hprev.symm.trans hcr)
  rw [List.append_cons, pushAll_append, hroom, hbody]
  simp [pushAll, hlf]

/-- Settles O27: without its LF the first frame slides out of the window that the second completes; without its CR it is
dropped in silence, and the second is emitted from whatever state that leaves. -/
theorem aLostTerminatorLosesOneFrame : Obligations.ALostTerminatorLosesOneFrame := by
  intro s p q x hs hempty hp hq hpLf hqLf
  refine ⟨fun hx => ?_, fun hx => ?_⟩
  · have hnoLf : LF ∉ p ++ [CR, x] ++ q := by
      simp only [List.mem_append, List.mem_cons, not_or]
      exact ⟨⟨hpLf, by decide, Ne.symm hx, List.not_mem_nil⟩, hqLf⟩
    obtain ⟨f, hframe, hemits⟩ := pushAll_terminator_emits (p ++ [CR, x] ++ q) s hs hnoLf (by simp [hq])
    rw [lastN_append_right 12 _ q hq] at hframe
    exact ⟨f, hframe, hemits.trans (by simp [hp, hq])⟩
  · have hs' := pushAll_storageOk (p ++ [x, LF]) s hs
    obtain ⟨f, hframe, hemits⟩ := pushAll_terminator_emits q _ hs' hqLf hq.ge
    have hall : lastN 12 q = q := lastN_append_right 12 [] q hq
    rw [hall] at hframe
    refine ⟨f, hframe, ?_⟩
    have hlost := pushAll_without_cr p x s hs hempty hp hx
    change (pushAll (p ++ [x, LF] ++ q ++ [CR, LF]) s).2 = _
    rw [List.append_assoc (p ++ [x, LF]), pushAll_append, hlost, hemits, hq]
    rfl

end Sys2Proof.Machine

/-! ### Progress (70 R243) -/

namespace Sys2Proof.Machine

/-- A PUSH goes on under WF7: the decode of an emitted frame does not fault. -/
theorem execPush_goesOn (b : Byte) (s : State) (ha : s.config.admitted = true) (h7 : s.config.wf7 = true) :
    ∃ t, execPush b s = .next t := by
  cases hf : (framerPush b (clearOutputs s)).2 with
  | none => exact ⟨_, execPush_none b s ha hf⟩
  | some f =>
    exact ⟨_, (execPush_some b s f ha hf).trans
      (conclude_goesOn _ _ fun u => decodeAs_ne_invariant_of_wf7 s.config _ f u h7)⟩

/-- Settles O56: row by row; the rows that decode go on because WF7 leaves no decode a fault. -/
theorem everyCommandCompletes : Obligations.EveryCommandCompletes := by
  intro i s hr ha h7
  have hdecode (m : Nibble) (f : Frame) : ∃ t, decodeStep m f s = .next t :=
    ⟨_, decodeStep_goesOn m f s ha fun u => decodeAs_ne_invariant_of_wf7 s.config m f u h7⟩
  rcases instr_cases i with rfl | ⟨b, rfl⟩ | ⟨f, rfl⟩ | rfl | rfl | hreserved | ⟨m, f, rfl⟩
  · exact (idleCommand s ha).imp fun _ h => h.1
  · exact execPush_goesOn b s ha h7
  · exact hdecode (mtypeCode f) f
  · exact (resetCommand s ha).imp fun _ h => h.1
  · exact (rdstartCommand s ha).imp fun _ h => h.1
  · simp [hr] at hreserved
  · rw [exec_mtypeInstr]
    exact hdecode m f

/-- An attempt within the budget ends the read or is counted, with attempts left (42_stream_reader R185). -/
theorem readerAttempt_ends_or_counts (f : Option Frame) (s : State) (hn : s.attempts < s.config.budget) :
    (readerAttempt f s).rdActive = false ∨
      (readerAttempt f s).attempts = s.attempts + 1 ∧ s.attempts + 1 < s.config.budget := by
  rcases readerAttempt_cases f s with ⟨hr, e⟩ | ⟨-, -, e⟩ | ⟨-, -, -, e⟩ | ⟨-, -, hne, e⟩
  · exact .inl (by rw [e, hr])
  · exact .inl (by rw [e, readerStop_rdActive])
  · exact .inl (by rw [e, raise_rdActive, readerStop_rdActive])
  · refine .inr ⟨?_, by omega⟩
    rw [e, countAttempt_attempts, countAttempt_exact _ _ hn]

theorem isAttempt_iff (i : Instr) : i.isAttempt = true ↔ i = .idle ∨ ∃ b, i = .push b := by
  cases i <;> simp [Instr.isAttempt]

theorem isReserved_of_isAttempt (i : Instr) (hi : i.isAttempt = true) : i.isReserved = false := by
  rcases (isAttempt_iff i).1 hi with rfl | ⟨b, rfl⟩ <;> rfl

/-- IDLE or PUSH within the budget ends the read or is counted, with attempts left (42_stream_reader R180, R185). -/
theorem exec_ends_or_counts (i : Instr) (s t : State) (hi : i.isAttempt = true) (hn : s.attempts < s.config.budget)
    (h : exec i s = .next t) :
    t.rdActive = false ∨ t.attempts = s.attempts + 1 ∧ s.attempts + 1 < s.config.budget := by
  rcases (isAttempt_iff i).1 hi with rfl | ⟨b, rfl⟩
  · cases (ifAdmitted_next s _ t h).2
    exact readerAttempt_ends_or_counts none (clearOutputs s) hn
  · obtain ⟨-, ⟨-, rfl⟩ | ⟨f, -, -, rfl⟩⟩ := execPush_next b s t h
    · simpa [framerPush_frame] using readerAttempt_ends_or_counts none (framerPush b (clearOutputs s)).1
        (by simpa [framerPush_frame] using hn)
    · exact .inl (readerAttempt_some_attemptWithFrame f _).1

theorem run_succ_of_step (M : Host.Core) (k : Nat) (s s' : M.State) (h : M.step s = .next s') :
    M.run (k + 1) s = M.run k s' := by
  rw [Host.Core.run, h]

/-- Attempts enough to fill the budget end the read: each ends it or leaves one attempt less (70 R243). -/
theorem run_attempts_end_read (xs : List Input) (s : State) (ha : s.config.admitted = true) (h7 : s.config.wf7 = true)
    (hn : s.attempts < s.config.budget) (hfill : s.config.budget ≤ s.attempts + xs.length) (hwaiting : s.inputs = xs)
    (hattempts : ∀ x ∈ xs, (decodeCommand x).isAttempt = true) :
    ∃ (k : Nat) (t : State), k ≤ xs.length ∧ core.run k s = .next t ∧ t.rdActive = false := by
  induction xs generalizing s with
  | nil =>
    rw [List.length_nil] at hfill
    omega
  | cons x rest ih =>
    obtain ⟨hx, hrest⟩ := List.forall_mem_cons.1 hattempts
    obtain ⟨t, hexec⟩ := everyCommandCompletes (decodeCommand x) (setInputs rest s) (isReserved_of_isAttempt _ hx) ha h7
    have hstep : core.step s = .next t := (step_waiting s x rest hwaiting).trans hexec
    rcases exec_ends_or_counts _ (setInputs rest s) t hx hn hexec with hdone | ⟨hcount, hleft⟩
    · exact ⟨1, t, by simp, run_succ_of_step core 0 s t hstep, hdone⟩
    · obtain ⟨hconfig, hinputs⟩ := configurationIsNeverWritten _ _ t hexec
      rw [setInputs_config] at hconfig hleft
      rw [setInputs_attempts] at hcount hleft
      rw [List.length_cons] at hfill
      rw [← hconfig] at ha h7 hleft hfill
      obtain ⟨k, u, hk, hrun, hdone⟩ := ih t ha h7 (by omega) (by omega) hinputs hrest
      exact ⟨k + 1, u, Nat.succ_le_succ hk, (run_succ_of_step core k s t hstep).trans hrun, hdone⟩

/-- Settles O50: the waiting attempts fill the budget (`run_attempts_end_read`). -/
theorem everyReadEndsWithinItsBudget : Obligations.EveryReadEndsWithinItsBudget := by
  intro s ha h7 _ hn hlen hattempts
  exact run_attempts_end_read s.inputs s ha h7 hn (by omega) rfl hattempts

end Sys2Proof.Machine
